-- ==== Sys2Proof/Word.lean ====
section
/-! DEFINITION. The value types of the block (spec R13): unsigned bytes, 16-bit words, 2-bit operation
codes and 4-bit statuses. -/

namespace Sys2Proof

/-- R13: an unsigned 8-bit value. -/
abbrev Byte := BitVec 8

/-- R13: an unsigned 16-bit value. -/
abbrev Bits16 := BitVec 16

/-- R69: the operation code OP[1:0]. -/
abbrev OpCode := BitVec 2

/-- R30, R72: the status S[3:0]. -/
abbrev Status := BitVec 4

end Sys2Proof
end

