-- ==== Sys2Proof/Config.lean ====
section
/-! DEFINITION. What is fixed for the life of the block: the protocol constants of R9 and R26, the type of
the instantiation parameters of R10, the reference configurations of R12, and the values the spec leaves open (`opaque`, without a body). -/

namespace Sys2Proof.Config

/-- R9, FRAME_LEN. -/
def frameLen : Nat := 19
/-- R9, PAYLOAD_LEN. -/
def payloadLen : Nat := 13
/-- R9, CRC_START: the checksum range begins at the code byte. -/
def crcStart : Nat := 1
/-- R9, CRC_LEN. -/
def crcLen : Nat := 16

/-! The field offsets of the frame map (R46, R60). -/

/-- Offset of the start marker. -/
def offStx : Nat := 0
/-- Offset of the command-or-response code. -/
def offCode : Nat := 1
/-- Offset of the control/item code. -/
def offCtrl : Nat := 2
/-- Offset of payload element 0. -/
def offPayload : Nat := 3
/-- Offset of the end marker. -/
def offEtx : Nat := 16
/-- Offset of the checksum's high byte. -/
def offCrcHi : Nat := 17
/-- Offset of the checksum's low byte. -/
def offCrcLo : Nat := 18

/-! The code byte's named values (R9, R64, R65). -/

/-- CODE_SET, outgoing. -/
def codeSet : Byte := 0x21#8
/-- CODE_GET, outgoing. -/
def codeGet : Byte := 0x31#8
/-- RSP_OK. -/
def rspOk : Byte := 0xA0#8
/-- RSP_NE1. -/
def rspNe1 : Byte := 0xA2#8
/-- RSP_NE2. -/
def rspNe2 : Byte := 0xA3#8
/-- RSP_FAIL. -/
def rspFail : Byte := 0xA4#8
/-- RSP_OTHER. -/
def rspOther : Byte := 0xA5#8
/-- RSP_A9, "an undocumented tolerated value". -/
def rspA9 : Byte := 0xA9#8

/-- R9, R66: ACCEPTED, the response codes VALIDATE takes as success (conflict C4: 0xA2, 0xA4, 0xA5 are not in it). -/
def accepted : List Byte := [rspOk, rspNe2, rspA9]

/-- The eight code values that have a row of their own in the opcode table; R67's other 248 are unnamed. -/
def namedCodes : List Byte :=
  [codeSet, codeGet, rspOk, rspNe1, rspNe2, rspFail, rspOther, rspA9]

end Sys2Proof.Config

namespace Sys2Proof

/-- R10: the instantiation parameters, open in the source and fixed when the block is instantiated. -/
structure Params where
  /-- P_STX, the start marker. -/
  stx : Byte
  /-- P_ETX, the end marker. -/
  etx : Byte
  /-- P_CRC_POLY, MSB-first form without the x^16 term. -/
  crcPoly : Bits16
  /-- P_CRC_INIT. -/
  crcInit : Bits16
  /-- P_CRC_REFIN. -/
  crcRefin : Bool
  /-- P_CRC_REFOUT. -/
  crcRefout : Bool
  /-- P_CRC_XOROUT. -/
  crcXorout : Bits16
  deriving DecidableEq, Repr, Inhabited

/-- R10, R190 (D1 to D3): this block's parameters. The source gives no values, so nothing is known of them
(assumption log 1). -/
opaque Config.params : Params

/-- R149 (D12): the records of one VALIDATE are unordered. This free value, applied to the number of
VALIDATE transactions before, picks the order in which an attached sink receives them
(assumption log 5). -/
opaque Config.recordOrder : Nat → Nat

/-- R12, reference configuration REF-A: markers 0x02 and 0x03, CRC-16/CCITT-FALSE. It exists to make concrete test
vectors; it is not the device's configuration, and no other definition of the model depends on it. -/
def Config.refA : Params :=
  { stx := 0x02#8, etx := 0x03#8, crcPoly := 0x1021#16, crcInit := 0xFFFF#16, crcRefin := false
    crcRefout := false, crcXorout := 0x0000#16 }

/-- R12, reference configuration REF-B: markers 0x02 and 0x03, CRC-16/ARC. As REF-A, for test vectors only. -/
def Config.refB : Params :=
  { stx := 0x02#8, etx := 0x03#8, crcPoly := 0x8005#16, crcInit := 0x0000#16, crcRefin := true
    crcRefout := true, crcXorout := 0x0000#16 }

end Sys2Proof
end

