-- ==== Sys2Proof/Machine/Crc.lean ====
section
/-! DEFINITION. The CRC-16 of 40_checksum.md and the byte order of its result (R40). -/

namespace Sys2Proof.Machine

/-! ### Byte order -/

/-- R40: c[15:8], stored first. -/
def hiByte (c : Bits16) : Byte := c.extractLsb' 8 8

/-- R40: c[7:0], stored second. -/
def loByte (c : Bits16) : Byte := c.extractLsb' 0 8

/-- R13, R63: `{h, l}`, the 16-bit value of a high and a low byte. -/
def bytePair (h l : Byte) : Bits16 := (h.setWidth 16 <<< 8) ||| l.setWidth 16

/-! ### CRC

The parameterised form is the spec's (R90, D3, D4, D23; assumption log 13). -/

/-- The part of R89's sum over the bits below `k`. -/
def reflectBelow {n : Nat} (v : BitVec n) : Nat → BitVec n
  | 0 => 0#n
  | k + 1 => reflectBelow v k ||| ((if v.getLsbD k then 1#n else 0#n) <<< (n - 1 - k))

/-- R89: reflect_N, the bits in reverse order. -/
def reflect {n : Nat} (v : BitVec n) : BitVec n := reflectBelow v n

/-- R90: one of the eight inner steps. -/
def crcBit (p : Params) (reg : Bits16) : Bits16 :=
  if reg.getLsbD 15 then (reg <<< 1) ^^^ p.crcPoly else reg <<< 1

/-- R90: `k` inner steps. -/
def crcBits (p : Params) : Nat → Bits16 → Bits16
  | 0, reg => reg
  | k + 1, reg => crcBits p k (crcBit p reg)

/-- R90: an input byte, reflected where P_CRC_REFIN says so. -/
def crcInput (p : Params) (b : Byte) : Byte := if p.crcRefin then reflect b else b

/-- R90: the register after one more input byte. -/
def crcByte (p : Params) (reg : Bits16) (b : Byte) : Bits16 :=
  crcBits p 8 (reg ^^^ ((crcInput p b).setWidth 16 <<< 8))

/-- R90, R42: the register after the bytes, in increasing index order, from `reg`. -/
def crcRegister (p : Params) (reg : Bits16) (bytes : List Byte) : Bits16 :=
  bytes.foldl (crcByte p) reg

/-- R90: the register's final reflection and XOR. -/
def crcFinal (p : Params) (reg : Bits16) : Bits16 :=
  (if p.crcRefout then reflect reg else reg) ^^^ p.crcXorout

/-- R90: crc16(BYTES). -/
def crc16 (p : Params) (bytes : List Byte) : Bits16 := crcFinal p (crcRegister p p.crcInit bytes)

/-- R92: the checksum of a frame, over its 16 bytes from offset 1. -/
def frameCrc (p : Params) (f : List Byte) : Bits16 :=
  crc16 p ((f.drop Config.crcStart).take Config.crcLen)

/-- R95: crc16_0's parameters, the initial value and the final XOR zero. -/
def zeroedCrc (p : Params) : Params := { p with crcInit := 0#16, crcXorout := 0#16 }

/-- R11, R96: P_SINGLE_BYTE_DETECT. Replacing one byte of a sequence by another value changes its CRC16. The spec
has a model take it as an assumption about its parameters, so a statement that needs it has it as a hypothesis
(assumption log 4). -/
def SingleByteDetect (p : Params) : Prop :=
  ∀ (before after : List Byte) (b c : Byte), b ≠ c →
    crc16 p (before ++ b :: after) ≠ crc16 p (before ++ c :: after)

end Sys2Proof.Machine
end

