-- ==== Sys2Proof/Syntax.lean ====
section
/-! DEFINITION. What a host can present to the block, and the instructions of the opcode table.

The table has two encodings (30_encoding.md): four operations selected by OP[1:0] (R69) with the operand ports
of R70, and nine rows for the code byte F[1] of a 19-byte wire frame (R64 to R67). A code-byte row stands
for the wire frames that carry that code (assumption log 2). -/

namespace Sys2Proof

/-- R60, R61: the six fields of a frame other than its code byte. -/
structure Envelope where
  /-- F[0]. -/
  stx : Byte
  /-- F[2]. -/
  ctrl : Byte
  /-- F[3..15]. -/
  payload : List Byte
  /-- F[16]. -/
  etx : Byte
  /-- F[17]. -/
  crcHi : Byte
  /-- F[18]. -/
  crcLo : Byte
  deriving DecidableEq, Repr

/-- R61: the field view of a frame, exactly seven fields. -/
structure Fields where
  /-- F[0]. -/
  stx : Byte
  /-- F[1]. -/
  code : Byte
  /-- F[2]. -/
  ctrl : Byte
  /-- F[3..15]. -/
  payload : List Byte
  /-- F[16]. -/
  etx : Byte
  /-- F[17]. -/
  crcHi : Byte
  /-- F[18]. -/
  crcLo : Byte
  deriving DecidableEq, Repr

/-- R70: the operand ports of a request. An operation reads its own ports only. -/
structure Ports where
  /-- BYTES of CRC16. -/
  bytes : List Byte
  /-- ITEM of BUILD_SET and BUILD_GET. -/
  item : Byte
  /-- DATA of BUILD_SET. -/
  data : List Byte
  /-- LENGTH of BUILD_SET, unbounded (D8). -/
  length : Nat
  /-- SUB of BUILD_GET. -/
  sub : Byte
  /-- SUBSUB of BUILD_GET. -/
  subsub : Byte
  /-- FRAME of VALIDATE; a request may present any length (R148). -/
  frame : List Byte
  deriving DecidableEq, Repr

/-- One request as a host presents it. -/
inductive Request where
  /-- R69: an operation selected by OP[1:0], with the operand ports of R70. -/
  | select (op : OpCode) (ports : Ports)
  /-- R2: a raw received buffer, handed over as it came; its code byte F[1] says which row of the table it
  is (assumption log 2). -/
  | wire (frame : List Byte)
  deriving DecidableEq, Repr

/-- The instructions: one constructor per row of spec/opcode_table.json. -/
inductive Instr where
  /-- R90. -/
  | crc16 (bytes : List Byte)
  /-- R110. -/
  | buildSet (item : Byte) (data : List Byte) (length : Nat)
  /-- R114. -/
  | buildGet (item sub subsub : Byte)
  /-- R140. -/
  | validate (frame : List Byte)
  /-- Row SET: a wire frame with code 0x21 (R64, R67). -/
  | setCode (rest : Envelope)
  /-- Row GET: a wire frame with code 0x31 (R64, R67). -/
  | getCode (rest : Envelope)
  /-- Row RSP_OK: code 0xA0 (R65). -/
  | rspOk (rest : Envelope)
  /-- Row RSP_NE1: code 0xA2 (R65). -/
  | rspNe1 (rest : Envelope)
  /-- Row RSP_NE2: code 0xA3 (R65). -/
  | rspNe2 (rest : Envelope)
  /-- Row RSP_FAIL: code 0xA4 (R65). -/
  | rspFail (rest : Envelope)
  /-- Row RSP_OTHER: code 0xA5 (R65). -/
  | rspOther (rest : Envelope)
  /-- Row RSP_A9: code 0xA9 (R65). -/
  | rspA9 (rest : Envelope)
  /-- Row RSP_UNNAMED: one of the 248 code values without a name (R67). -/
  | rspUnnamed (code : Byte) (rest : Envelope)
  deriving DecidableEq, Repr

end Sys2Proof
end

