-- ==== Sys2Proof/Machine/State.lean ====
section
/-! DEFINITION. The state of the block and the reasons a transaction can stop.

The block keeps nothing from one request to the next (R22). State holds the instantiation parameters (R10, R26),
the three per-transaction values IN, W and S (R29), and the host's side of the interface: the request it
presents, the response it reads, its diagnostic sink (R149) and its reset (R191). -/

namespace Sys2Proof.Machine

/-- A byte-addressed space (R31): the bytes that exist in it, addresses strictly rising. An address that is
not listed holds no byte, so there is no value an unlisted address reads as (assumption log 10). -/
abbrev Memory := List Host.Cell

/-- The canonical form of a memory. -/
abbrev Memory.wf (m : Memory) : Prop := m.Pairwise (fun c d => c.1 < d.1)

/-- R31: the block's two address spaces. -/
inductive Space where
  /-- The request's input byte sequence. -/
  | input
  /-- The working frame W of a builder. -/
  | output
  deriving DecidableEq, Repr

/-- R72: the failure reasons of VALIDATE, one per status bit. -/
inductive Reason where
  /-- S[0] BAD_START. -/
  | badStart
  /-- S[1] BAD_CODE. -/
  | badCode
  /-- S[2] BAD_END. -/
  | badEnd
  /-- S[3] BAD_CHECKSUM. -/
  | badChecksum
  deriving DecidableEq, Repr

/-- R71: what a host gets back from a transaction that raises no model fault. -/
inductive Response where
  /-- CRC16's CRC[15:0]. -/
  | crc (c : Bits16)
  /-- A builder's FRAME, offset 0 first. -/
  | frame (bytes : List Byte)
  /-- VALIDATE's STATUS[3:0]. -/
  | status (s : Status)
  deriving DecidableEq, Repr

/-- R172: the model faults. Each ends the request with no response and no record. -/
inductive Fault where
  /-- F_PAYLOAD_UNDERRUN (R113), raised by BUILD_SET when min(LENGTH, 13) > len(DATA); it records both.
  Safe: the spec stops where the source says nothing (D9). -/
  | payloadUnderrun (length dataLen : Nat)
  /-- F_FRAME_LENGTH (R148), raised by VALIDATE, and by a raw buffer presented as a wire frame, when the length
  is not 19; it records the length. Safe (D10). -/
  | frameLength (len : Nat)
  /-- An access to an address that does not exist in its space (R31). Raised by MemRead and MemWrite of Ops.lean
  only; no instruction makes such an access, so none ends in it (R53, R54). Safe. -/
  | noSuchByte (space : Space) (address : Nat)
  deriving DecidableEq, Repr

/-- Why the model gives an instruction no meaning. -/
inductive Refusal where
  /-- Raised by exec's arm of an instruction without a meaning; no arm is one. Safe. -/
  | notModelled (mnemonic : String)
  deriving DecidableEq, Repr

/-- Everything the spec gives the block. -/
structure State where
  /-- R10, R26: the instantiation parameters; nothing writes them. -/
  params : Params
  /-- R18, R29: the request presented, IN exactly as presented, held until its transaction ends; `none` when no
  transaction is in progress (assumption log 12). -/
  request : Option Request
  /-- R31: the IN space, empty outside a transaction. -/
  inp : Memory
  /-- R29, R31: the working frame W, the OUT space; empty outside a transaction. -/
  out : Memory
  /-- R29, R30: the status S; it exists only during VALIDATE. -/
  status : Option Status
  /-- R18, R71: the response of the last transaction that gave one, as its host reads it
  (assumption log 12). -/
  response : Option Response
  /-- R149: the diagnostic sink a host attached, with the records it received so far, oldest first;
  `none` when none is attached. -/
  sink : Option (List Reason)
  /-- R191: a host asks for reset. That a line asks for it is the model's choice (assumption log 7). -/
  resetLine : Bool
  /-- The model's own: how many VALIDATE transactions drew a record order (assumption log 5). -/
  draws : Nat
  deriving DecidableEq, Repr

/-- R190: after reset there is no transaction, so no request, IN, W, S or response; the parameters hold their
instantiation values. DESIGN CHOICE: the spec names no reset line, and the model's is not asked for at
reset (`resetLine := false`, assumption log 7); no sink is attached yet (assumption log 6); the response field is
empty (assumption log 12); the counter of draws is 0 (assumption log 5). -/
def State.reset : State :=
  { params := Config.params, request := none, inp := [], out := [], status := none
    response := none, sink := none, resetLine := false, draws := 0 }

end Sys2Proof.Machine
end

