-- ==== Sys2Proof/Machine/Ops.lean ====
section
/-! DEFINITION. The named operations over the block's two byte spaces (R15, R31), over a transaction's
values (R29), and the raising of a model fault (R172): the block has no exception entry and no return
(R170, R176), so this is the one way a request ends without a response. -/

namespace Sys2Proof.Machine

/-- A part of a transaction: what it yields, or the model fault it raises. -/
abbrev Txn (α : Type) := Except Fault α

/-! ### Byte spaces -/

/-- The byte at an address, if one exists there. -/
def Memory.read : Memory → Nat → Option Byte
  | [], _ => none
  | (a, b) :: m, x => if x = a then some b else Memory.read m x

/-- Write one byte, keeping the addresses strictly rising. -/
def Memory.write : Memory → Nat → Byte → Memory
  | [], x, v => [(x, v)]
  | (a, b) :: m, x, v =>
      if x < a then (x, v) :: (a, b) :: m
      else if x = a then (x, v) :: m
      else (a, b) :: Memory.write m x v

/-- The bytes of a sequence at `base`, `base + 1`, … -/
def Memory.ofBytes : Nat → List Byte → Memory
  | _, [] => []
  | base, b :: bs => (base, b) :: Memory.ofBytes (base + 1) bs

/-- R15: the byte at an address of a space; an address that holds no byte does not exist. -/
def Memory.fetch (space : Space) (m : Memory) (a : Nat) : Txn Byte :=
  match m.read a with
  | some b => .ok b
  | none => .error (.noSuchByte space a)

/-- R15, R45: `n` bytes from address `a` on, read one at a time in increasing order. -/
def Memory.fetchN (space : Space) (m : Memory) : Nat → Nat → Txn (List Byte)
  | _, 0 => .ok []
  | a, n + 1 => do
      let b ← m.fetch space a
      let bs ← Memory.fetchN space m (a + 1) n
      .ok (b :: bs)

/-! ### MemRead and MemWrite -/

/-- R15: MemRead(IN:a, 1). -/
def readIn (a : Nat) (s : State) : Txn Byte := s.inp.fetch .input a

/-- R15: MemRead(IN:a, n). -/
def readInN (a n : Nat) (s : State) : Txn (List Byte) := s.inp.fetchN .input a n

/-- R29, R92: W[a .. a+n-1]. -/
def readOutN (a n : Nat) (s : State) : Txn (List Byte) := s.out.fetchN .output a n

/-- R15: MemWrite(OUT:a, 1, v). OUT has the offsets 0 to 18 (R31). -/
def writeOut (a : Nat) (v : Byte) (s : State) : Txn State :=
  if a < Config.frameLen then .ok { s with out := s.out.write a v }
  else .error (.noSuchByte .output a)

/-! ### A transaction's beginning and end -/

/-- R29, R31, R48: a transaction begins with a snapshot of its input bytes in IN (assumption log 11), and with no
W and no S of an earlier one. -/
def beginTxn (bytes : List Byte) (s : State) : State :=
  { s with inp := Memory.ofBytes 0 bytes, out := [], status := none }

/-- R15, R22, R29: `return`. The host gets the response; the request, IN, W and S are gone. -/
def endTxn (r : Response) (s : State) : State :=
  { s with request := none, inp := [], out := [], status := none, response := some r }

/-- R172, R176: `raise Fault`: the request ends with the fault, no response and no record
(assumption log 9). -/
def raiseFault (f : Fault) : Host.Outcome State Fault Refusal := .fault f

/-- The outcome of a whole transaction. -/
def Txn.outcome : Txn State → Host.Outcome State Fault Refusal
  | .ok s => .next s
  | .error f => raiseFault f

/-! ### Reset -/

/-- R190, R191: reset ends a transaction in progress without a response; with none in progress it changes
nothing. The parameters, and the host's sink, are as before (assumption log 7). -/
def resetBlock (s : State) : State :=
  match s.request with
  | none => { s with resetLine := false }
  | some _ =>
      { s with request := none, inp := [], out := [], status := none, response := none
               resetLine := false }

end Sys2Proof.Machine
end

