-- ==== Sys2Proof/Machine/Operands.lean ====
section
/-! DEFINITION. Operand assembly (R73, R74) into the working frame W. -/

namespace Sys2Proof.Machine

/-- R73: n = min(LENGTH, 13). -/
def setCount (length : Nat) : Nat := min length Config.payloadLen

/-- R73, R110: the loop `for i in 0..k-1` of BUILD_SET: payload element i is IN byte i below `n`, else 0x00. -/
def writeSetPayload (n : Nat) : Nat → State → Txn State
  | 0, s => .ok s
  | k + 1, s => do
      let s ← writeSetPayload n k s
      let b ← if k < n then readIn k s else .ok 0x00#8
      writeOut (Config.offPayload + k) b s

/-- R114: the loop that writes `k` zero bytes from offset `a` on. -/
def writeZeros (a : Nat) : Nat → State → Txn State
  | 0, s => .ok s
  | k + 1, s => do
      let s ← writeZeros a k s
      writeOut (a + k) 0x00#8 s

/-- R74, R114: the payload [SUB, SUBSUB] ++ zeros(11). -/
def writeGetPayload (sub subsub : Byte) (s : State) : Txn State := do
  let s ← writeOut Config.offPayload sub s
  let s ← writeOut (Config.offPayload + 1) subsub s
  writeZeros (Config.offPayload + 2) (Config.payloadLen - 2) s

end Sys2Proof.Machine
end

