-- ==== Sys2Proof/Machine/Build.lean ====
section
/-! DEFINITION. The meanings of BUILD_SET and BUILD_GET (41_build.md). -/

namespace Sys2Proof.Machine

/-- R110, R114: the writes at offsets 0 to 2. -/
def writeHeader (code item : Byte) (s : State) : Txn State := do
  let s ← writeOut Config.offStx s.params.stx s
  let s ← writeOut Config.offCode code s
  writeOut Config.offCtrl item s

/-- R40: the checksum goes into W as two byte writes, high byte first. -/
def writeChecksum (c : Bits16) (s : State) : Txn State := do
  let s ← writeOut Config.offCrcHi (hiByte c) s
  writeOut Config.offCrcLo (loByte c) s

/-- R110, R114: the end marker, then the checksum of W[1..16] (R92). -/
def writeTrailer (s : State) : Txn State := do
  let s ← writeOut Config.offEtx s.params.etx s
  let w ← readOutN Config.crcStart Config.crcLen s
  writeChecksum (crc16 s.params w) s

/-- R110, R114: `return W`. -/
def returnFrame (s : State) : Txn State := do
  let w ← readOutN 0 Config.frameLen s
  .ok (endTxn (.frame w) s)

/-- R110 to R113: BUILD_SET. -/
def execBuildSet (item : Byte) (data : List Byte) (length : Nat) (s : State) :
    Host.Outcome State Fault Refusal :=
  if data.length < setCount length then raiseFault (.payloadUnderrun length data.length)
  else Txn.outcome do
    let s ← writeHeader Config.codeSet item (beginTxn data s)
    let s ← writeSetPayload (setCount length) Config.payloadLen s
    let s ← writeTrailer s
    returnFrame s

/-- R114: BUILD_GET; it has no input byte sequence (R53). -/
def execBuildGet (item sub subsub : Byte) (s : State) : Host.Outcome State Fault Refusal :=
  Txn.outcome do
    let s ← writeHeader Config.codeGet item (beginTxn [] s)
    let s ← writeGetPayload sub subsub s
    let s ← writeTrailer s
    returnFrame s

end Sys2Proof.Machine
end

