-- ==== Sys2Proof/Machine/Checksum.lean ====
section
/-! DEFINITION. The meaning of CRC16 (40_checksum.md). -/

namespace Sys2Proof.Machine

/-- R90: CRC16 reads every byte of BYTES once, in order, and answers its checksum. -/
def execCrc16 (bytes : List Byte) (s : State) : Host.Outcome State Fault Refusal :=
  Txn.outcome do
    let s := beginTxn bytes s
    let bs ← readInN 0 bytes.length s
    .ok (endTxn (.crc (crc16 s.params bs)) s)

end Sys2Proof.Machine
end

