-- ==== Sys2Proof/WellFormed.lean ====
section
/-! DEFINITION. Which instruction terms the encodings can express. An operation's operands are all legal
(R69, R70, D13); a code-byte row needs the 13 payload bytes of R60, and RSP_UNNAMED a code that no other row
names (R67). A request that raises a model fault (R172) is well formed: the fault is its effect. -/

namespace Sys2Proof

/-- R60: the payload field has 13 elements. -/
def Envelope.wf (e : Envelope) : Bool := e.payload.length == Config.payloadLen

/-- The check on a term, one case per constructor. -/
def Instr.wf : Instr → Bool
  | .crc16 _ => true
  | .buildSet _ _ _ => true
  | .buildGet _ _ _ => true
  | .validate _ => true
  | .setCode e => e.wf
  | .getCode e => e.wf
  | .rspOk e => e.wf
  | .rspNe1 e => e.wf
  | .rspNe2 e => e.wf
  | .rspFail e => e.wf
  | .rspOther e => e.wf
  | .rspA9 e => e.wf
  | .rspUnnamed c e => !Config.namedCodes.contains c && e.wf

end Sys2Proof
end

