-- ==== Sys2Proof/Decode.lean ====
section
/-! DEFINITION. Decoding a request (R69, R70) or a raw wire buffer (R60 to R67), total on both, and the
encoder written from the same tables. -/

namespace Sys2Proof

/-- Why a raw buffer is no wire frame. -/
inductive DecodeError where
  /-- R60, R148: the buffer has `len` bytes, not 19. -/
  | frameLength (len : Nat)
  deriving DecidableEq, Repr

/-! ### The field view -/

/-- R61: the seven fields of a 19-byte sequence; no validation. A sequence of another length is no frame (R14). -/
def fieldView (f : List Byte) : Option Fields :=
  if f.length = Config.frameLen then
    some { stx := f.getD Config.offStx 0#8
           code := f.getD Config.offCode 0#8
           ctrl := f.getD Config.offCtrl 0#8
           payload := (f.drop Config.offPayload).take Config.payloadLen
           etx := f.getD Config.offEtx 0#8
           crcHi := f.getD Config.offCrcHi 0#8
           crcLo := f.getD Config.offCrcLo 0#8 }
  else none

/-- The fields of a frame without its code byte. -/
def Fields.rest (v : Fields) : Envelope :=
  { stx := v.stx, ctrl := v.ctrl, payload := v.payload, etx := v.etx, crcHi := v.crcHi, crcLo := v.crcLo }

/-- R60: the wire order of a frame's fields. -/
def Envelope.toFrame (code : Byte) (e : Envelope) : List Byte :=
  [e.stx, code, e.ctrl] ++ e.payload ++ [e.etx, e.crcHi, e.crcLo]

/-- R60: the frame with these seven fields. -/
def Fields.toFrame (v : Fields) : List Byte := v.rest.toFrame v.code

/-! ### Decoding -/

/-- R64, R65, R67: the row of a code byte. -/
def codeInstr (code : Byte) (e : Envelope) : Instr :=
  if code = Config.codeSet then .setCode e
  else if code = Config.codeGet then .getCode e
  else if code = Config.rspOk then .rspOk e
  else if code = Config.rspNe1 then .rspNe1 e
  else if code = Config.rspNe2 then .rspNe2 e
  else if code = Config.rspFail then .rspFail e
  else if code = Config.rspOther then .rspOther e
  else if code = Config.rspA9 then .rspA9 e
  else .rspUnnamed code e

/-- A raw buffer as a wire frame, selected by its code byte. -/
def decodeFrame (f : List Byte) : Except DecodeError Instr :=
  match fieldView f with
  | some v => .ok (codeInstr v.code v.rest)
  | none => .error (.frameLength f.length)

/-- R69, R70: the operation of an OP code, with the ports it reads. All four codes are assigned. -/
def decodeSelect (op : OpCode) (p : Ports) : Instr :=
  if op = 0b00#2 then .crc16 p.bytes
  else if op = 0b01#2 then .buildSet p.item p.data p.length
  else if op = 0b10#2 then .buildGet p.item p.sub p.subsub
  else .validate p.frame

/-- The instruction a request stands for. -/
def decode : Request → Except DecodeError Instr
  | .select op p => .ok (decodeSelect op p)
  | .wire f => decodeFrame f

/-! ### Encoding -/

/-- Every port at rest: empty sequences, zero numbers, and 19 zero bytes on the FRAME port, whose
sequence must have length 19 (R70). -/
def Ports.zero : Ports :=
  { bytes := [], item := 0#8, data := [], length := 0, sub := 0#8, subsub := 0#8
    frame := List.replicate Config.frameLen 0#8 }

/-- The request that stands for an instruction: its OP code with its operands on their ports (R69, R70), or
its wire frame (R60, R64, R65). -/
def encode : Instr → Request
  | .crc16 bytes => .select 0b00#2 { Ports.zero with bytes := bytes }
  | .buildSet item data length =>
      .select 0b01#2 { Ports.zero with item := item, data := data, length := length }
  | .buildGet item sub subsub =>
      .select 0b10#2 { Ports.zero with item := item, sub := sub, subsub := subsub }
  | .validate frame => .select 0b11#2 { Ports.zero with frame := frame }
  | .setCode e => .wire (e.toFrame Config.codeSet)
  | .getCode e => .wire (e.toFrame Config.codeGet)
  | .rspOk e => .wire (e.toFrame Config.rspOk)
  | .rspNe1 e => .wire (e.toFrame Config.rspNe1)
  | .rspNe2 e => .wire (e.toFrame Config.rspNe2)
  | .rspFail e => .wire (e.toFrame Config.rspFail)
  | .rspOther e => .wire (e.toFrame Config.rspOther)
  | .rspA9 e => .wire (e.toFrame Config.rspA9)
  | .rspUnnamed c e => .wire (e.toFrame c)

/-! ### The opcode table's words -/

/-- The bits the opcode table numbers: OP[1:0] of an operation, F[1][7:0] of a wire frame. -/
def Request.tableWord : Request → Byte
  | .select op _ => op.setWidth 8
  | .wire f => f.getD Config.offCode 0#8

/-- A frame whose code byte is `code` and whose other bytes are zero. -/
def wireOfCode (code : Byte) : List Byte :=
  Envelope.toFrame code { stx := 0#8, ctrl := 0#8, payload := List.replicate Config.payloadLen 0#8
                          etx := 0#8, crcHi := 0#8, crcLo := 0#8 }

/-- The request of a word of the table. The two encodings number their bits from 0 alike, so the words 0 to 3
are read as OP[1:0] and every other byte as a code byte; a row to which the table gives no bits
(RSP_UNNAMED, `nbits = 0`) is read as a code byte (assumption log 3). -/
def tableRequest (nbits w : Nat) : Option Request :=
  if 0 < nbits ∧ w < 4 then some (.select (BitVec.ofNat 2 w) Ports.zero)
  else if w < 256 then some (.wire (wireOfCode (BitVec.ofNat 8 w)))
  else none

/-- The instruction the decoder reads from a word of the table, its other operands zero. -/
def decodeTableWord (nbits w : Nat) : Option Instr :=
  match tableRequest nbits w with
  | some r => (decode r).toOption
  | none => none

end Sys2Proof
end

