-- ==== Sys2Proof/Machine/Flags.lean ====
section
/-! DEFINITION. The status S, the block's only flag-like state (R30), its four conditions (R72), and the diagnostic
records that report it (R149). -/

namespace Sys2Proof.Machine

/-- R72: the status bit of a reason. -/
def Reason.bit : Reason → Nat
  | .badStart => 0
  | .badCode => 1
  | .badEnd => 2
  | .badChecksum => 3

/-- The reasons in the order of their bits. -/
def Reason.all : List Reason := [.badStart, .badCode, .badEnd, .badChecksum]

/-- R72: the reasons a status reports. -/
def reasonsOf (st : Status) : List Reason := Reason.all.filter (fun r => st.getLsbD r.bit)

/-- R30, R140: VALIDATE creates S anew, as 0b0000. -/
def createStatus (s : State) : State := { s with status := some 0b0000#4 }

/-- R145: a check sets its own bit of S where its condition holds, and touches no other. -/
def flag (r : Reason) (bad : Bool) (s : State) : State :=
  { s with status := s.status.map (fun st => st ||| ((if bad then 1#4 else 0#4) <<< r.bit)) }

/-! ### The four conditions (R141 to R144) -/

/-- R141: F[0] differs from P_STX. -/
def startBad (p : Params) (b : Byte) : Bool := b != p.stx

/-- R142: F[1] is not in ACCEPTED. -/
def codeBad (b : Byte) : Bool := !Config.accepted.contains b

/-- R143: F[16] differs from P_ETX. -/
def endBad (p : Params) (b : Byte) : Bool := b != p.etx

/-- R144: the stored big-endian checksum differs from the fresh one over the covered bytes. -/
def checksumBad (p : Params) (hi lo : Byte) (covered : List Byte) : Bool :=
  bytePair hi lo != crc16 p covered

/-! ### Diagnostic records -/

/-- One of the orders of `rs`; every order is `arrange k rs` for some `k`. -/
def arrange : Nat → List Reason → List Reason
  | _, [] => []
  | k, r :: rs => (arrange (k / (rs.length + 1)) rs).insertIdx (k % (rs.length + 1)) r

/-- R149: one record per set bit goes to an attached sink, in an order the spec leaves open
(assumption log 5); without a sink the records are discarded. -/
def emitRecords (st : Status) (s : State) : State :=
  { s with sink := s.sink.map (fun log => log ++ arrange (Config.recordOrder s.draws) (reasonsOf st))
           draws := s.draws + 1 }

end Sys2Proof.Machine
end

