-- ==== Sys2Proof/Machine/Validate.lean ====
section
/-! DEFINITION. The meaning of VALIDATE (42_validate.md), over one shared operation that the code-byte rows use
as well. -/

namespace Sys2Proof.Machine

/-- R141: check 1. -/
def checkStart (s : State) : Txn State := do
  let b ← readIn Config.offStx s
  .ok (flag .badStart (startBad s.params b) s)

/-- R142: check 2. -/
def checkCode (s : State) : Txn State := do
  let b ← readIn Config.offCode s
  .ok (flag .badCode (codeBad b) s)

/-- R143: check 3. -/
def checkEnd (s : State) : Txn State := do
  let b ← readIn Config.offEtx s
  .ok (flag .badEnd (endBad s.params b) s)

/-- R144: check 4. -/
def checkChecksum (s : State) : Txn State := do
  let hi ← readIn Config.offCrcHi s
  let lo ← readIn Config.offCrcLo s
  let covered ← readInN Config.crcStart Config.crcLen s
  .ok (flag .badChecksum (checksumBad s.params hi lo covered) s)

/-- R140, R149: the records of S, then `return S`. -/
def returnStatus (s : State) : State :=
  let st := s.status.getD 0b0000#4
  endTxn (.status st) (emitRecords st s)

/-- R140: the whole of validate(F): the length first (R148, R175), then all four checks, whatever the earlier
ones found (R145). -/
def validateFrame (frame : List Byte) (s : State) : Host.Outcome State Fault Refusal :=
  if frame.length ≠ Config.frameLen then raiseFault (.frameLength frame.length)
  else Txn.outcome do
    let s := createStatus (beginTxn frame s)
    let s ← checkStart s
    let s ← checkCode s
    let s ← checkEnd s
    let s ← checkChecksum s
    .ok (returnStatus s)

/-- R140: VALIDATE. -/
def execValidate (frame : List Byte) (s : State) : Host.Outcome State Fault Refusal :=
  validateFrame frame s

end Sys2Proof.Machine
end

