-- ==== Sys2Proof/Machine/FrameCode.lean ====
section
/-! DEFINITION. The meanings of the nine code-byte rows. The table gives each its effect on VALIDATE
("check 2 passes", or "STATUS[1] BAD_CODE set"), and VALIDATE is the one operation that reads a presented frame;
so a row's meaning is the validation of a wire frame that carries its code (R65 to R68, R142; assumption
log 2). -/

namespace Sys2Proof.Machine

/-- Row SET: an outgoing code, rejected by VALIDATE (R67, R68). -/
def execSetCode (rest : Envelope) (s : State) : Host.Outcome State Fault Refusal :=
  validateFrame (rest.toFrame Config.codeSet) s

/-- Row GET: an outgoing code, rejected by VALIDATE (R67, R68). -/
def execGetCode (rest : Envelope) (s : State) : Host.Outcome State Fault Refusal :=
  validateFrame (rest.toFrame Config.codeGet) s

/-- Row RSP_OK: accepted (R66). -/
def execRspOk (rest : Envelope) (s : State) : Host.Outcome State Fault Refusal :=
  validateFrame (rest.toFrame Config.rspOk) s

/-- Row RSP_NE1: named, rejected (R66, C4). -/
def execRspNe1 (rest : Envelope) (s : State) : Host.Outcome State Fault Refusal :=
  validateFrame (rest.toFrame Config.rspNe1) s

/-- Row RSP_NE2: accepted (R66). -/
def execRspNe2 (rest : Envelope) (s : State) : Host.Outcome State Fault Refusal :=
  validateFrame (rest.toFrame Config.rspNe2) s

/-- Row RSP_FAIL: named, rejected (R66, C4). -/
def execRspFail (rest : Envelope) (s : State) : Host.Outcome State Fault Refusal :=
  validateFrame (rest.toFrame Config.rspFail) s

/-- Row RSP_OTHER: named, rejected (R66, C4). -/
def execRspOther (rest : Envelope) (s : State) : Host.Outcome State Fault Refusal :=
  validateFrame (rest.toFrame Config.rspOther) s

/-- Row RSP_A9: undocumented, accepted (R66). -/
def execRspA9 (rest : Envelope) (s : State) : Host.Outcome State Fault Refusal :=
  validateFrame (rest.toFrame Config.rspA9) s

/-- Row RSP_UNNAMED: any of the 248 values without a name, rejected (R67). -/
def execRspUnnamed (code : Byte) (rest : Envelope) (s : State) : Host.Outcome State Fault Refusal :=
  validateFrame (rest.toFrame code) s

end Sys2Proof.Machine
end

