-- ==== Sys2Proof/Machine/Dispatch.lean ====
section
/-! DEFINITION. One arm per row of the opcode table. -/

namespace Sys2Proof.Machine

def exec (i : Instr) (s : State) : Host.Outcome State Fault Refusal :=
  match i with
  -- the four operations of R69
  | .crc16 bytes => Sys2Proof.Machine.execCrc16 bytes s
  | .buildSet item data length => Sys2Proof.Machine.execBuildSet item data length s
  | .buildGet item sub subsub => Sys2Proof.Machine.execBuildGet item sub subsub s
  | .validate frame => Sys2Proof.Machine.execValidate frame s
  -- the rows of the code byte (R64 to R67)
  | .setCode rest => Sys2Proof.Machine.execSetCode rest s
  | .getCode rest => Sys2Proof.Machine.execGetCode rest s
  | .rspOk rest => Sys2Proof.Machine.execRspOk rest s
  | .rspNe1 rest => Sys2Proof.Machine.execRspNe1 rest s
  | .rspNe2 rest => Sys2Proof.Machine.execRspNe2 rest s
  | .rspFail rest => Sys2Proof.Machine.execRspFail rest s
  | .rspOther rest => Sys2Proof.Machine.execRspOther rest s
  | .rspA9 rest => Sys2Proof.Machine.execRspA9 rest s
  | .rspUnnamed code rest => Sys2Proof.Machine.execRspUnnamed code rest s

end Sys2Proof.Machine
end

