-- ==== Sys2Proof/Machine/Step.lean ====
section
/-! DEFINITION. One step: one transaction, atomic (R21). -/

namespace Sys2Proof.Machine

/-- One step of the block. A reset asked for comes first and costs a request in progress its response (R191);
a request is decoded and answered whole (R21); with no request there is no transaction, and nothing
changes (R22; assumption log 8). A raw buffer that is no frame raises F_FRAME_LENGTH (R148). -/
def step (s : State) : Host.Outcome State Fault Refusal :=
  if s.resetLine then .next (resetBlock s)
  else
    match s.request with
    | none => .next s
    | some r =>
        match decode r with
        | .ok i => exec i s
        | .error (.frameLength n) => raiseFault (.frameLength n)

/-- The state with the request of a word of the opcode table presented. The block fetches nothing (R24, R51): a host
presents each request, so this stands for the host, which asks for no reset (assumption log 3). -/
def State.withFetchWord (s : State) (nbits w : Nat) : State :=
  { s with request := tableRequest nbits w, resetLine := false }

end Sys2Proof.Machine
end

