-- ==== Sys2Proof/Safety.lean ====
section
/-! DEFINITION. What a host sees of the block, what a safe request is, and the predicates that claims are stated
with. -/

namespace Sys2Proof.Machine

/-! ### Requests and answers -/

/-- R18, R20: a host presents a request. -/
def State.present (s : State) (r : Request) : State := { s with request := some r }

/-- R179: what a host gets back for one request. -/
inductive Answer where
  /-- The transaction's response. -/
  | response (r : Response)
  /-- The request raised a model fault. -/
  | fault (f : Fault)
  /-- Neither: the transaction was reset (R191). -/
  | nothing
  deriving DecidableEq, Repr

/-- The answer that a step's outcome gives. -/
def Answer.of : Host.Outcome State Fault Refusal → Answer
  | .next t => match t.response with
    | some r => .response r
    | none => .nothing
  | .fault f => .fault f
  | .refused _ => .nothing

/-- The answer to a request presented in `s`. -/
def answer (s : State) (r : Request) : Answer := Answer.of (step (s.present r))

/-- R196: the answers of a run of requests, in the order they are issued. After a model fault the host may
go on: the block kept nothing of the faulted request (R22, R176), so the next one is presented in the state
before it (assumption log 9). A request that a reset swallows gets the answer `nothing` (assumption log 15). -/
def transcript : List Request → State → List Answer
  | [], _ => []
  | r :: rs, s => match step (s.present r) with
    | .next t => Answer.of (.next t) :: transcript rs t
    | .fault f => .fault f :: transcript rs s
    | .refused _ => .nothing :: transcript rs s

/-- R196: a run that stops at its first model fault; it is successful when it ends in a state. DESIGN CHOICE: a
request that a reset swallows (R191: no response, no model fault) does not stop the run, so a run from a
state in which reset is asked for counts as successful where none of its other requests faults (assumption
log 15). -/
def runRequests : List Request → State → Host.Outcome State Fault Refusal
  | [], s => .next s
  | r :: rs, s => match step (s.present r) with
    | .next t => runRequests rs t
    | .fault f => .fault f
    | .refused x => .refused x

end Sys2Proof.Machine

namespace Sys2Proof

/-- R172: the model fault a request raises, if any. -/
def Request.modelFault : Request → Option Machine.Fault
  | .select op p =>
      if op = 0b01#2 ∧ p.data.length < min p.length 13 then
        some (.payloadUnderrun p.length p.data.length)
      else if op = 0b11#2 ∧ p.frame.length ≠ 19 then some (.frameLength p.frame.length)
      else none
  | .wire f => if f.length ≠ 19 then some (.frameLength f.length) else none

/-- R179, R194: the host did its part, so the request raises no model fault. -/
def Request.faultFree (r : Request) : Bool := r.modelFault.isNone

end Sys2Proof

namespace Sys2Proof.Machine

/-- R15, R18: the transaction of `i` in `s` completes with response `r`. -/
def Responds (i : Instr) (s : State) (r : Response) : Prop :=
  ∃ t, exec i s = .next t ∧ t.response = some r

/-- R22, R29: `s` after a transaction with response `r` that emits no record: the request is answered, IN, W
and S are gone, and every other field is as it was. -/
def State.answered (s : State) (r : Response) : State :=
  { s with request := none, inp := [], out := [], status := none, response := some r }

/-- R149, R151: `s` after a VALIDATE with status `st` whose records reach an attached sink in the order `recs`. The
counter of draws is the model's own, and that new records stand behind earlier ones is its choice (assumption
log 5). -/
def State.validated (s : State) (st : Status) (recs : List Reason) : State :=
  { s with request := none, inp := [], out := [], status := none, response := some (.status st)
           sink := s.sink.map (fun log => log ++ recs), draws := s.draws + 1 }

/-- R149: `recs` is one record for each set bit of `st`, in any order. -/
def RecordsOf (st : Status) (recs : List Reason) : Prop :=
  recs.Nodup ∧ (Reason.badStart ∈ recs ↔ st.getLsbD 0 = true) ∧
    (Reason.badCode ∈ recs ↔ st.getLsbD 1 = true) ∧ (Reason.badEnd ∈ recs ↔ st.getLsbD 2 = true) ∧
    (Reason.badChecksum ∈ recs ↔ st.getLsbD 3 = true)

/-- A code-byte row `i` with code `c` and the frame's other fields `e` completes in every state: its status
reports BAD_CODE exactly as `bad` says, the other three reasons as R141, R143 and R144 do, and nothing but
the response, the records and the model's counter (assumption log 5) is left of it. -/
def RowAnswers (i : Instr) (c : Byte) (e : Envelope) (bad : Bool) : Prop :=
  ∀ s : State, ∃ st recs, exec i s = .next (s.validated st recs) ∧ RecordsOf st recs ∧
    (st.getLsbD 0 = true ↔ e.stx ≠ s.params.stx) ∧ st.getLsbD 1 = bad ∧
    (st.getLsbD 2 = true ↔ e.etx ≠ s.params.etx) ∧
    (st.getLsbD 3 = true ↔
      bytePair e.crcHi e.crcLo ≠ crc16 s.params ([c, e.ctrl] ++ e.payload ++ [e.etx]))

/-! ### Predicates on frames and states -/

/-- R116: what every frame a builder returns satisfies. -/
def BuiltFrame (p : Params) (f : List Byte) : Prop :=
  f.length = 19 ∧ f[0]? = some p.stx ∧
    (f[1]? = some Config.codeSet ∨ f[1]? = some Config.codeGet) ∧ f[16]? = some p.etx ∧
    f[17]? = some (hiByte (frameCrc p f)) ∧ f[18]? = some (loByte (frameCrc p f))

/-- R146: a frame that passes. -/
def PassingFrame (p : Params) (f : List Byte) : Prop :=
  f.length = 19 ∧ f[0]? = some p.stx ∧ (∃ c ∈ Config.accepted, f[1]? = some c) ∧
    f[16]? = some p.etx ∧ ∃ hi lo, f[17]? = some hi ∧ f[18]? = some lo ∧
      bytePair hi lo = frameCrc p f

/-- R22, R29: no transaction's IN, W or S is left. -/
def Quiescent (s : State) : Prop := s.inp = [] ∧ s.out = [] ∧ s.status = none

/-- What holds of the block between transactions: its spaces are in canonical form, IN, W and S are gone (R22,
R29), and a frame it answered is one R116 allows. -/
def Inv (s : State) : Prop :=
  s.inp.wf ∧ s.out.wf ∧ Quiescent s ∧
    ∀ f, s.response = some (.frame f) → BuiltFrame s.params f

end Sys2Proof.Machine
end

