-- ==== Sys2Proof/Certificates/Slice0/Obligations.lean ====
section
/-! DEFINITION. The statements for the provers. -/

open Sys2Proof Sys2Proof.Machine

/-! ### Encodings -/

/-- R69: OP[1:0] selects the operation, and all four codes are assigned; each operation gets its own ports of
R70. -/
def Obligations.OpCodeSelectsOperation : Prop :=
  ∀ p : Ports,
    decode (.select 0b00#2 p) = .ok (.crc16 p.bytes) ∧
    decode (.select 0b01#2 p) = .ok (.buildSet p.item p.data p.length) ∧
    decode (.select 0b10#2 p) = .ok (.buildGet p.item p.sub p.subsub) ∧
    decode (.select 0b11#2 p) = .ok (.validate p.frame)

/-- The rows of the code byte, R64, R65 and R67. That a raw wire buffer selects a row is the model's choice
(assumption log 2). -/
def Obligations.CodeByteSelectsRow : Prop :=
  ∀ e : Envelope, e.payload.length = 13 →
    decode (.wire (e.toFrame 0x21#8)) = .ok (.setCode e) ∧
    decode (.wire (e.toFrame 0x31#8)) = .ok (.getCode e) ∧
    decode (.wire (e.toFrame 0xA0#8)) = .ok (.rspOk e) ∧
    decode (.wire (e.toFrame 0xA2#8)) = .ok (.rspNe1 e) ∧
    decode (.wire (e.toFrame 0xA3#8)) = .ok (.rspNe2 e) ∧
    decode (.wire (e.toFrame 0xA4#8)) = .ok (.rspFail e) ∧
    decode (.wire (e.toFrame 0xA5#8)) = .ok (.rspOther e) ∧
    decode (.wire (e.toFrame 0xA9#8)) = .ok (.rspA9 e) ∧
    ∀ c : Byte, c ∉ [0x21#8, 0x31#8, 0xA0#8, 0xA2#8, 0xA3#8, 0xA4#8, 0xA5#8, 0xA9#8] →
      decode (.wire (e.toFrame c)) = .ok (.rspUnnamed c e)

/-- A sanity statement: words of the opcode table, their other bits zero, decode to their rows. The reading of the
words 0 to 3 as OP[1:0] is the model's choice (assumption log 3). -/
def Obligations.TableWordsDecode : Prop :=
  decodeTableWord 8 0b00 = some (.crc16 []) ∧
  decodeTableWord 8 0b01 = some (.buildSet 0x00#8 [] 0) ∧
  decodeTableWord 8 0b10 = some (.buildGet 0x00#8 0x00#8 0x00#8) ∧
  decodeTableWord 8 0b11 = some (.validate (List.replicate 19 0x00#8)) ∧
  decodeTableWord 8 0b00100001 = some (.setCode ⟨0x00#8, 0x00#8, List.replicate 13 0x00#8, 0x00#8, 0x00#8, 0x00#8⟩) ∧
  decodeTableWord 8 0b10101001 = some (.rspA9 ⟨0x00#8, 0x00#8, List.replicate 13 0x00#8, 0x00#8, 0x00#8, 0x00#8⟩)

/-- Decoding the encoding of a well-formed instruction gives it back, for every instruction and every operand. -/
def Obligations.DecodeEncodeGivesInstructionBack : Prop :=
  ∀ i : Instr, i.wf = true → decode (encode i) = .ok i

/-- The other direction: what a wire buffer decodes to is well formed and encodes to that buffer; what an
operation's request decodes to is well formed and encodes to a request with the same OP code that decodes alike
(ports the operation does not read may differ). -/
def Obligations.EncodeDecodeGivesRequestBack : Prop :=
  (∀ f i, decode (.wire f) = .ok i → i.wf = true ∧ encode i = .wire f) ∧
  (∀ op p i, decode (.select op p) = .ok i →
    i.wf = true ∧ ∃ q, encode i = .select op q ∧ decode (.select op q) = .ok i)

/-- R61: the field view is defined on every 19-byte sequence, shows every byte of it, and checks none. -/
def Obligations.FieldViewShowsEveryByte : Prop :=
  ∀ f : List Byte, f.length = 19 → ∃ v, fieldView f = some v ∧
    f[0]? = some v.stx ∧ f[1]? = some v.code ∧ f[2]? = some v.ctrl ∧
    v.payload.length = 13 ∧ (∀ i < 13, v.payload[i]? = f[3 + i]?) ∧
    f[16]? = some v.etx ∧ f[17]? = some v.crcHi ∧ f[18]? = some v.crcLo

/-! ### The step -/

/-- R21, R69: with no reset asked for, a step decodes the request presented and is the meaning of the
instruction. A raw buffer that is no frame raises F_FRAME_LENGTH, which is the model's reading
(assumption log 2). -/
def Obligations.StepRunsDecodedInstruction : Prop :=
  ∀ (s : State) (r : Request), s.resetLine = false → s.request = some r →
    (∀ i, decode r = .ok i → step s = exec i s) ∧
    (∀ n, decode r = .error (.frameLength n) → step s = .fault (.frameLength n))

/-- R22: with no request there is no transaction, and nothing changes. That such a step answers a next state
is the model's choice (assumption log 8). -/
def Obligations.StepWithoutRequestChangesNothing : Prop :=
  ∀ s : State, s.resetLine = false → s.request = none → step s = .next s

/-- R190, R191: reset costs a request in progress its response, and with none in progress it has no effect but
to be over; the parameters survive. That the sink and its records survive is the model's choice (assumption
log 7). -/
def Obligations.ResetEndsTransactionWithoutResponse : Prop :=
  ∀ s : State, s.resetLine = true →
    (s.request = none → step s = .next { s with resetLine := false }) ∧
    (∀ r, s.request = some r → step s = .next
      { params := s.params, request := none, inp := [], out := [], status := none, response := none
        sink := s.sink, resetLine := false, draws := s.draws })

/-- R190: after reset the parameters hold their instantiation values, and no W, no S and no transaction exist. -/
def Obligations.ResetStateHoldsParametersOnly : Prop :=
  State.reset.params = Config.params ∧ State.reset.out = [] ∧ State.reset.status = none ∧
    State.reset.inp = [] ∧ State.reset.request = none ∧ State.reset.response = none

/-- The invariant holds right after reset. -/
def Obligations.ResetStateMeetsInvariant : Prop := Inv State.reset

/-- Every step from a state that meets the invariant gives a state that meets it: canonical byte spaces (the model's
representation, assumption log 10), nothing left of IN, W and S (R22, R29), and only frames that R116 allows. -/
def Obligations.StepKeepsInvariant : Prop :=
  ∀ s t : State, Inv s → step s = .next t → Inv t

/-- R10, R26: no step changes a parameter. -/
def Obligations.StepKeepsParameters : Prop :=
  ∀ s t : State, step s = .next t → t.params = s.params

/-- R149, R173: the block only adds records to an attached sink, and attaches or detaches none. Two clauses are the
model's choice, not the spec's: that the sink and its records survive a step that resets (assumption log 7,
DESIGN CHOICE), and that new records stand behind earlier ones (assumption log 5, DESIGN CHOICE). -/
def Obligations.StepOnlyAddsRecords : Prop :=
  ∀ s t : State, step s = .next t →
    (s.sink = none → t.sink = none) ∧
    (∀ log, s.sink = some log → ∃ recs, t.sink = some (log ++ recs))

/-- R22, R29: whatever the instruction, a transaction that completes leaves none of its IN, W and S, changes
neither the parameters nor the reset line, and has a response; only VALIDATE and the code-byte rows, which
validate, touch the sink (and the model's counter, assumption log 5). The reset line is the model's (assumption log 7). -/
def Obligations.TransactionLeavesNothingButAnswer : Prop :=
  ∀ (i : Instr) (s t : State), exec i s = .next t →
    t.params = s.params ∧ t.request = none ∧ t.inp = [] ∧ t.out = [] ∧ t.status = none ∧
    t.resetLine = s.resetLine ∧ (∃ r, t.response = some r) ∧
    (∀ bytes, i = .crc16 bytes → t.sink = s.sink ∧ t.draws = s.draws) ∧
    (∀ item data length, i = .buildSet item data length → t.sink = s.sink ∧ t.draws = s.draws) ∧
    (∀ item sub subsub, i = .buildGet item sub subsub → t.sink = s.sink ∧ t.draws = s.draws)

/-! ### CRC16 -/

/-- R89: reflection reverses the bits of a byte and of a 16-bit value, and is its own inverse; with the rule's
three examples. -/
def Obligations.ReflectionReversesBits : Prop :=
  (∀ v : Byte, (∀ i < 8, (reflect v).getLsbD i = v.getLsbD (7 - i)) ∧ reflect (reflect v) = v) ∧
  (∀ v : Bits16, (∀ i < 16, (reflect v).getLsbD i = v.getLsbD (15 - i)) ∧ reflect (reflect v) = v) ∧
  reflect 0x01#8 = 0x80#8 ∧ reflect 0xA0#8 = 0x05#8 ∧ reflect 0x0001#16 = 0x8000#16

/-- R90, R91: CRC16 completes on a byte range of any length, answers its checksum, and changes nothing else. -/
def Obligations.Crc16AnswersChecksum : Prop :=
  ∀ (bytes : List Byte) (s : State),
    exec (.crc16 bytes) s = .next (s.answered (.crc (crc16 s.params bytes)))

/-- R94: the CRC of the empty sequence. -/
def Obligations.Crc16OfEmptySequence : Prop :=
  ∀ s : State, exec (.crc16 []) s = .next (s.answered (.crc
    ((if s.params.crcRefout then reflect s.params.crcInit else s.params.crcInit) ^^^
      s.params.crcXorout)))

/-- R95: the CRC is affine: the XOR of two checksums of equally long sequences is the checksum of their XOR
under a zero initial value and a zero final XOR. -/
def Obligations.CrcIsLinear : Prop :=
  ∀ (p : Params) (a b : List Byte), a.length = b.length →
    crc16 p a ^^^ crc16 p b =
      crc16 { p with crcInit := 0#16, crcXorout := 0#16 } (List.zipWith (· ^^^ ·) a b)

/-- R96: an odd polynomial is enough for P_SINGLE_BYTE_DETECT, whatever the other parameters. -/
def Obligations.OddPolynomialDetectsSingleByteChange : Prop :=
  ∀ p : Params, p.crcPoly.getLsbD 0 = true → SingleByteDetect p

/-! ### The builders -/

/-- R110, R73, R113: BUILD_SET completes exactly when DATA holds n = min(LENGTH, 13) bytes: it answers start
marker, 0x21, ITEM, the first n bytes of DATA, zeros up to 13, end marker and the big-endian checksum of
bytes 1 to 16, and changes nothing else; otherwise it raises F_PAYLOAD_UNDERRUN, which records both lengths. -/
def Obligations.BuildSetAnswersSetFrame : Prop :=
  ∀ (item : Byte) (data : List Byte) (length : Nat) (s : State),
    let n := min length 13
    let covered := [0x21#8, item] ++ data.take n ++ List.replicate (13 - n) 0x00#8 ++ [s.params.etx]
    let c := crc16 s.params covered
    (n ≤ data.length → exec (.buildSet item data length) s =
      .next (s.answered (.frame ([s.params.stx] ++ covered ++ [c.extractLsb' 8 8, c.extractLsb' 0 8])))) ∧
    (data.length < n → exec (.buildSet item data length) s =
      .fault (.payloadUnderrun length data.length))

/-- R111: with LENGTH > 13 and enough DATA, the frame is the one for LENGTH = 13, its payload is DATA[0..12], and
nothing else is reported. -/
def Obligations.BuildSetTruncatesLongPayload : Prop :=
  ∀ (item : Byte) (data : List Byte) (length : Nat) (s : State), 13 < length → 13 ≤ data.length →
    ∃ f, exec (.buildSet item data length) s = .next (s.answered (.frame f)) ∧
      exec (.buildSet item data 13) s = .next (s.answered (.frame f)) ∧
      (f.drop 3).take 13 = data.take 13

/-- R112: every payload byte from n = min(LENGTH, 13) on is 0x00, whatever DATA holds there. -/
def Obligations.BuildSetZeroFillsPayload : Prop :=
  ∀ (item : Byte) (data : List Byte) (length : Nat) (s : State), min length 13 ≤ data.length →
    ∃ f, exec (.buildSet item data length) s = .next (s.answered (.frame f)) ∧
      ∀ i, min length 13 ≤ i → i ≤ 12 → f[3 + i]? = some 0x00#8

/-- R53: BUILD_SET reads DATA[0..n-1] and no other byte of DATA. -/
def Obligations.BuildSetReadsOnlyFirstBytes : Prop :=
  ∀ (item : Byte) (data other : List Byte) (length : Nat) (s : State),
    min length 13 ≤ data.length → data.take (min length 13) = other.take (min length 13) →
      exec (.buildSet item other length) s = exec (.buildSet item data length) s

/-- R114, R74: BUILD_GET completes for every operand value: start marker, 0x31, ITEM, SUB, SUBSUB, eleven
zeros, end marker and the big-endian checksum of bytes 1 to 16; nothing else changes. -/
def Obligations.BuildGetAnswersGetFrame : Prop :=
  ∀ (item sub subsub : Byte) (s : State),
    let covered := [0x31#8, item, sub, subsub] ++ List.replicate 11 0x00#8 ++ [s.params.etx]
    let c := crc16 s.params covered
    exec (.buildGet item sub subsub) s =
      .next (s.answered (.frame ([s.params.stx] ++ covered ++ [c.extractLsb' 8 8, c.extractLsb' 0 8])))

/-- R115: BUILD_GET i, s, t and BUILD_SET i, [s, t], 2 agree on the offsets 0 and 2 to 16, and differ at
offset 1, 0x31 against 0x21. -/
def Obligations.BuildGetAgreesWithBuildSet : Prop :=
  ∀ (item sub subsub : Byte) (s : State), ∃ g f,
    exec (.buildGet item sub subsub) s = .next (s.answered (.frame g)) ∧
    exec (.buildSet item [sub, subsub] 2) s = .next (s.answered (.frame f)) ∧
    g[0]? = f[0]? ∧ (∀ i, 2 ≤ i → i ≤ 16 → g[i]? = f[i]?) ∧
    g[1]? = some 0x31#8 ∧ f[1]? = some 0x21#8

/-- R116, R68: a frame that any instruction answers has its markers, an outgoing code and the right checksum,
and VALIDATE reports BAD_CODE alone of it. -/
def Obligations.BuiltFrameValidatesToBadCodeAlone : Prop :=
  ∀ (i : Instr) (s t : State) (f : List Byte), exec i s = .next t → t.response = some (.frame f) →
    BuiltFrame s.params f ∧ Responds (.validate f) s (.status 0b0010#4)

/-- R64: BUILD_SET writes the code 0x21 and BUILD_GET the code 0x31, so each frame is a wire frame of that code's
row (rows SET and GET; assumption log 2), with ITEM as its control byte. -/
def Obligations.BuiltFrameIsOfItsCodeRow : Prop :=
  (∀ (item : Byte) (data : List Byte) (length : Nat) (s : State) (f : List Byte),
    Responds (.buildSet item data length) s (.frame f) →
      f[1]? = some 0x21#8 ∧ ∃ e, decode (.wire f) = .ok (.setCode e) ∧ e.ctrl = item) ∧
  (∀ (item sub subsub : Byte) (s : State) (f : List Byte),
    Responds (.buildGet item sub subsub) s (.frame f) →
      f[1]? = some 0x31#8 ∧ ∃ e, decode (.wire f) = .ok (.getCode e) ∧ e.ctrl = item)

/-- R117 (conflict C5): a set frame whose code byte is replaced by an accepted one passes once its checksum is
recomputed; without that, and where single-byte changes are detected, VALIDATE reports BAD_CHECKSUM alone. -/
def Obligations.RoundTripOfBuiltFrame : Prop :=
  ∀ (item : Byte) (data : List Byte) (length : Nat) (s : State) (f : List Byte) (r : Byte),
    Responds (.buildSet item data length) s (.frame f) → r ∈ [0xA0#8, 0xA3#8, 0xA9#8] →
    let g := f.set 1 r
    let c := crc16 s.params ((g.drop 1).take 16)
    Responds (.validate ((g.set 17 (c.extractLsb' 8 8)).set 18 (c.extractLsb' 0 8))) s
      (.status 0b0000#4) ∧
    (SingleByteDetect s.params → Responds (.validate g) s (.status 0b1000#4))

/-! ### VALIDATE and the code-byte rows -/

/-- R140 to R145, R148, R149: on 19 bytes VALIDATE completes; each bit of its status is set exactly when its own check
fails, whatever the others find, and one record for each set bit, in an order left open, reaches an attached
sink; nothing else of the spec's changes. On any other length it raises F_FRAME_LENGTH. That the new records stand
behind the sink's earlier ones, and that the model's own counter advances by one, are the model's choice
(assumption log 5, DESIGN CHOICE). -/
def Obligations.ValidateReportsEveryFailure : Prop :=
  ∀ (f : List Byte) (s : State),
    (f.length = 19 → ∃ st recs, exec (.validate f) s = .next (s.validated st recs) ∧ RecordsOf st recs ∧
      (st.getLsbD 0 = true ↔ f[0]? ≠ some s.params.stx) ∧
      (st.getLsbD 1 = true ↔ ∀ c ∈ [0xA0#8, 0xA3#8, 0xA9#8], f[1]? ≠ some c) ∧
      (st.getLsbD 2 = true ↔ f[16]? ≠ some s.params.etx) ∧
      (∀ hi lo, f[17]? = some hi → f[18]? = some lo →
        (st.getLsbD 3 = true ↔ bytePair hi lo ≠ crc16 s.params ((f.drop 1).take 16)))) ∧
    (f.length ≠ 19 → exec (.validate f) s = .fault (.frameLength f.length))

/-- R66, R142: the code check passes exactly on 0xA0, 0xA3 and 0xA9; no code value stops the block. -/
def Obligations.CodeCheckAcceptsExactlyThreeCodes : Prop :=
  ∀ (f : List Byte) (c : Byte) (s : State), f.length = 19 → f[1]? = some c →
    ∃ st, Responds (.validate f) s (.status st) ∧
      (st.getLsbD 1 = true ↔ c ≠ 0xA0#8 ∧ c ≠ 0xA3#8 ∧ c ≠ 0xA9#8)

/-- R146: a 19-byte frame passes exactly when both markers, the code and the stored checksum are right. -/
def Obligations.StatusOkMeansWellFormedFrame : Prop :=
  ∀ (f : List Byte) (s : State), f.length = 19 →
    (Responds (.validate f) s (.status 0b0000#4) ↔ PassingFrame s.params f)

/-- R149, D12: the order of a VALIDATE's records is open: every order of them is one that the free value can
pick. -/
def Obligations.EveryRecordOrderIsAllowed : Prop :=
  ∀ rs os : List Reason, os.Perm rs → ∃ k, arrange k rs = os

/-- R150: each of the 16 statuses is reached under every parameter set. -/
def Obligations.EveryStatusIsReachable : Prop :=
  ∀ (s : State) (st : Status), ∃ f : List Byte, f.length = 19 ∧ Responds (.validate f) s (.status st)

/-- R40, R63: `{h, l}` has h in its bits 15 to 8 and l in its bits 7 to 0, and a checksum's two stored bytes read
back as the checksum. -/
def Obligations.StoredChecksumIsBigEndian : Prop :=
  (∀ (h l : Byte) (i : Nat), i < 8 →
    (bytePair h l).getLsbD (8 + i) = h.getLsbD i ∧ (bytePair h l).getLsbD i = l.getLsbD i) ∧
  (∀ c : Bits16, bytePair (c.extractLsb' 8 8) (c.extractLsb' 0 8) = c)

/-- R97: let the stored checksum of 19 bytes be right, the other fields arbitrary. A change of one byte of F[1..16]
is reported as BAD_CHECKSUM where single-byte changes are detected; a change of F[17] or F[18] always is. -/
def Obligations.StaleChecksumIsReported : Prop :=
  ∀ (f : List Byte) (s : State) (hi lo : Byte) (i : Nat) (b : Byte), f.length = 19 →
    f[17]? = some hi → f[18]? = some lo → bytePair hi lo = frameCrc s.params f → f[i]? ≠ some b →
    (1 ≤ i → i ≤ 16 → SingleByteDetect s.params →
      ∃ st, Responds (.validate (f.set i b)) s (.status st) ∧ st.getLsbD 3 = true) ∧
    (i = 17 ∨ i = 18 →
      ∃ st, Responds (.validate (f.set i b)) s (.status st) ∧ st.getLsbD 3 = true)

/-- R150's table, with R141, R143 and R147: what a change of one byte of a passing frame is reported as. -/
def Obligations.SingleByteChangeOfPassingFrame : Prop :=
  ∀ (f : List Byte) (s : State) (i : Nat) (b : Byte), PassingFrame s.params f → f[i]? ≠ some b →
    (i = 0 → Responds (.validate (f.set i b)) s (.status 0b0001#4)) ∧
    (i = 17 ∨ i = 18 → Responds (.validate (f.set i b)) s (.status 0b1000#4)) ∧
    (SingleByteDetect s.params →
      (i = 1 → b ∈ [0xA0#8, 0xA3#8, 0xA9#8] →
        Responds (.validate (f.set i b)) s (.status 0b1000#4)) ∧
      (i = 1 → b ∉ [0xA0#8, 0xA3#8, 0xA9#8] →
        Responds (.validate (f.set i b)) s (.status 0b1010#4)) ∧
      (2 ≤ i → i ≤ 15 → Responds (.validate (f.set i b)) s (.status 0b1000#4)) ∧
      (i = 16 → Responds (.validate (f.set i b)) s (.status 0b1100#4)))

/-- The accepted code rows (R66): a frame with the code 0xA0, 0xA3 or 0xA9 completes, and BAD_CODE is not
reported. That a row's meaning is the validation of its frame is the model's choice (assumption log 2). -/
def Obligations.AcceptedCodeRowsPassCodeCheck : Prop :=
  ∀ e : Envelope, e.payload.length = 13 →
    RowAnswers (.rspOk e) 0xA0#8 e false ∧ RowAnswers (.rspNe2 e) 0xA3#8 e false ∧
    RowAnswers (.rspA9 e) 0xA9#8 e false

/-- The rejected code rows (R67): a frame with an outgoing code, a named but rejected one, or any of the 248
unnamed ones completes, and BAD_CODE is reported. The meaning of a row is the model's choice (assumption
log 2). -/
def Obligations.RejectedCodeRowsReportBadCode : Prop :=
  ∀ e : Envelope, e.payload.length = 13 →
    RowAnswers (.setCode e) 0x21#8 e true ∧ RowAnswers (.getCode e) 0x31#8 e true ∧
    RowAnswers (.rspNe1 e) 0xA2#8 e true ∧ RowAnswers (.rspFail e) 0xA4#8 e true ∧
    RowAnswers (.rspOther e) 0xA5#8 e true ∧
    ∀ c : Byte, c ∉ [0x21#8, 0x31#8, 0xA0#8, 0xA2#8, 0xA3#8, 0xA4#8, 0xA5#8, 0xA9#8] →
      RowAnswers (.rspUnnamed c e) c e true

/-- A wire buffer that decodes is answered exactly as VALIDATE answers it (assumption log 2: the code-byte rows
add no behaviour of their own). -/
def Obligations.WireFrameIsAnsweredAsValidate : Prop :=
  ∀ (f : List Byte) (i : Instr) (s : State), decode (.wire f) = .ok i →
    exec i s = exec (.validate f) s

/-! ### Faults, hosts and runs -/

/-- R172, R195: a request raises the model fault of R172's table exactly under its condition, and otherwise
completes with a response. For a raw buffer both are the model's choice (assumption log 2). -/
def Obligations.RequestFaultsExactlyAsTabled : Prop :=
  ∀ (s : State) (r : Request), s.resetLine = false →
    (∀ f, r.modelFault = some f → step (s.present r) = .fault f) ∧
    (r.modelFault = none → ∃ t x, step (s.present r) = .next t ∧ t.response = some x)

/-- R31, R53, R54: no instruction, well formed or not, accesses a byte that does not exist in its space, and none
is refused. -/
def Obligations.NoAccessOutsideByteSpaces : Prop :=
  ∀ (i : Instr) (s : State),
    (∀ sp a, exec i s ≠ .fault (.noSuchByte sp a)) ∧ (∀ x, exec i s ≠ .refused x)

/-- R28, R47: the answer to a request depends on the request and the parameters alone: two states that agree
on the parameters give equal answers, whatever else they hold. -/
def Obligations.AnswerDependsOnRequestAndParametersOnly : Prop :=
  ∀ (s t : State) (r : Request), s.resetLine = false → t.resetLine = false → s.params = t.params →
    answer s r = answer t r

/-- R47, R193: in a run of requests, faulted ones among them, each request gets the answer it would get alone; so
in another order of the same requests each gets the same answer. That a run goes on after a model fault in the
state before it is read from the spec by inference (assumption log 9, DEDUCED). -/
def Obligations.RunAnswersEachRequestAsAlone : Prop :=
  ∀ (s : State), s.resetLine = false →
    (∀ rs, transcript rs s = rs.map (answer s)) ∧
    (∀ rs os : List Request, rs.Perm os →
      (rs.zip (transcript rs s)).Perm (os.zip (transcript os s)))

/-- R172, R195, R196: with no reset asked for, a run succeeds exactly when none of its requests raises a model fault.
That a raw buffer of 19 bytes completes and one of another length raises F_FRAME_LENGTH is the model's choice
(assumption log 2, DESIGN CHOICE), not R172's table. -/
def Obligations.RunSucceedsExactlyWhenFaultFree : Prop :=
  ∀ (rs : List Request) (s : State), s.resetLine = false →
    ((∃ t, runRequests rs s = .next t) ↔ ∀ r ∈ rs, r.modelFault = none)
end

