-- ==== Sys2Proof/Laws/Crc.lean ====
section
/-! SUPPORT. Small laws of the CRC register, the byte order and bit reflection. -/

namespace Sys2Proof.Machine

/-! ### Byte order -/

@[simp] theorem bytePair_hiByte_loByte (c : Bits16) : bytePair (hiByte c) (loByte c) = c := by
  ext i hi
  simp only [bytePair, hiByte, loByte, BitVec.getElem_or, BitVec.getElem_shiftLeft,
    BitVec.getElem_setWidth, BitVec.getLsbD_extractLsb']
  by_cases h : i < 8
  · simp [h, BitVec.getLsbD_eq_getElem hi]
  · have : 8 + (i - 8) = i := by omega
    simp [h, this, show i - 8 < 8 by omega, hi]

@[simp] theorem hiByte_bytePair (h l : Byte) : hiByte (bytePair h l) = h := by
  ext i hi
  simp [bytePair, hiByte, BitVec.getLsbD_eq_getElem, hi, show 8 + i < 16 by omega]

@[simp] theorem loByte_bytePair (h l : Byte) : loByte (bytePair h l) = l := by
  ext i hi
  simp [bytePair, loByte, BitVec.getLsbD_eq_getElem, hi, show i < 16 by omega]

/-! ### Reflection -/

theorem reflectBelow_getLsbD {n : Nat} (v : BitVec n) (k i : Nat) (hk : k ≤ n) :
    (reflectBelow v k).getLsbD i =
      (decide (i < n) && decide (n - 1 - i < k) && v.getLsbD (n - 1 - i)) := by
  induction k with
  | zero => simp [reflectBelow]
  | succ k ih =>
    rw [reflectBelow, BitVec.getLsbD_or, ih (by omega)]
    by_cases hin : i < n
    · by_cases h : n - 1 - i = k
      · have hi : i = n - 1 - k := by omega
        subst hi
        cases hv : v.getLsbD k <;> simp [hin, h, hv]
      · have hne : (((if v.getLsbD k then 1#n else 0#n) <<< (n - 1 - k)).getLsbD i) = false := by
          split
          · simp [hin]
            omega
          · simp
        have hlt : (n - 1 - i < k + 1) = (n - 1 - i < k) := by
          simp; omega
        simp [hne, hlt]
    · simp [hin]

/-- R13: bit i of the result is bit N-1-i of v. -/
@[simp] theorem reflect_getLsbD {n : Nat} (v : BitVec n) (i : Nat) :
    (reflect v).getLsbD i = (decide (i < n) && v.getLsbD (n - 1 - i)) := by
  rw [reflect, reflectBelow_getLsbD v n i le_rfl]
  by_cases h : i < n <;> simp [h]
  omega

@[simp] theorem reflect_getElem {n : Nat} (v : BitVec n) (i : Nat) (h : i < n) :
    (reflect v)[i] = v.getLsbD (n - 1 - i) := by
  rw [← BitVec.getLsbD_eq_getElem, reflect_getLsbD]
  simp [h]

/-! ### The register -/

@[simp] theorem crcRegister_nil (p : Params) (reg : Bits16) : crcRegister p reg [] = reg := rfl

@[simp] theorem crcRegister_cons (p : Params) (reg : Bits16) (b : Byte) (bs : List Byte) :
    crcRegister p reg (b :: bs) = crcRegister p (crcByte p reg b) bs := rfl

@[simp] theorem crcRegister_append (p : Params) (reg : Bits16) (as bs : List Byte) :
    crcRegister p reg (as ++ bs) = crcRegister p (crcRegister p reg as) bs :=
  List.foldl_append ..

/-- The lowest bit of the register after an inner step is the bit shifted out, where the polynomial is odd. -/
theorem crcBit_getLsbD_zero {p : Params} (hp : p.crcPoly.getLsbD 0 = true) (reg : Bits16) :
    (crcBit p reg).getLsbD 0 = reg.getLsbD 15 := by
  unfold crcBit
  cases h : reg.getLsbD 15 <;> simp [hp]

end Sys2Proof.Machine
end

