-- ==== Sys2Proof/Laws/Decode.lean ====
section
/-! SUPPORT. The field view and the fields of a frame. -/

namespace Sys2Proof

theorem Envelope.toFrame_length {e : Envelope} (h : e.wf = true) (c : Byte) :
    (e.toFrame c).length = 19 := by
  have : e.payload.length = 13 := by simpa [Envelope.wf, Config.payloadLen] using h
  simp [Envelope.toFrame, this]

/-- R61: the view of a frame put together from its fields gives them back. -/
theorem fieldView_toFrame {e : Envelope} (h : e.wf = true) (c : Byte) :
    fieldView (e.toFrame c) = some
      { stx := e.stx, code := c, ctrl := e.ctrl, payload := e.payload
        etx := e.etx, crcHi := e.crcHi, crcLo := e.crcLo } := by
  have hp : e.payload.length = 13 := by simpa [Envelope.wf, Config.payloadLen] using h
  have hl := Envelope.toFrame_length h c
  have ht : ((e.toFrame c).drop 3).take 13 = e.payload := by
    simp [Envelope.toFrame, hp]
  have h16 : (e.toFrame c).getD 16 0#8 = e.etx := by
    simp [Envelope.toFrame, List.getD_eq_getElem?_getD, hp]
  have h17 : (e.toFrame c).getD 17 0#8 = e.crcHi := by
    simp [Envelope.toFrame, List.getD_eq_getElem?_getD, hp]
  have h18 : (e.toFrame c).getD 18 0#8 = e.crcLo := by
    simp [Envelope.toFrame, List.getD_eq_getElem?_getD, hp]
  rw [fieldView, if_pos (show _ = Config.frameLen from hl)]
  simp only [Config.offStx, Config.offCode, Config.offCtrl, Config.offPayload, Config.offEtx, Config.offCrcHi,
    Config.offCrcLo, Config.payloadLen, ht, h16, h17, h18]
  rfl

/-- A well-formed envelope with a code decodes to that code's row. -/
theorem decodeFrame_toFrame {e : Envelope} (h : e.wf = true) (c : Byte) :
    decodeFrame (e.toFrame c) = .ok (codeInstr c e) := by
  rw [decodeFrame, fieldView_toFrame h]
  rfl

/-- Every 19-byte sequence is the frame of its code byte and its other fields, and decodes to that code's row. -/
theorem decodeFrame_of_length {f : List Byte} (h : f.length = 19) :
    ∃ c e, e.wf = true ∧ e.payload.length = 13 ∧ f = e.toFrame c ∧ decodeFrame f = .ok (codeInstr c e) := by
  iterate 19 (rcases f with _ | ⟨_, f⟩; · simp at h)
  obtain rfl : f = [] := by simpa using h
  exact ⟨_, _, rfl, rfl, rfl, rfl⟩

/-- A sequence of another length is no frame. -/
theorem decodeFrame_of_length_ne {f : List Byte} (h : f.length ≠ 19) :
    decodeFrame f = .error (.frameLength f.length) := by
  rw [decodeFrame, fieldView, if_neg (show ¬f.length = Config.frameLen from h)]

end Sys2Proof
end

