-- ==== Sys2Proof/Laws/Memory.lean ====
section
/-! SUPPORT. The laws of the byte spaces: reading after writing, the canonical form, and sequences laid out as
memory. -/

namespace Sys2Proof.Machine

/-! ### Read and write -/

@[simp] theorem Memory.read_nil (a : Nat) : Memory.read [] a = none := rfl

@[simp] theorem Memory.read_write_same (m : Memory) (a : Nat) (v : Byte) :
    (m.write a v).read a = some v := by
  induction m with
  | nil => simp [Memory.write, Memory.read]
  | cons c m ih =>
    obtain ⟨b, w⟩ := c
    simp only [Memory.write]
    split_ifs with h1 h2 <;> simp [Memory.read, *]

theorem Memory.read_write_other (m : Memory) {a x : Nat} (v : Byte) (h : x ≠ a) :
    (m.write a v).read x = m.read x := by
  induction m with
  | nil => simp [Memory.write, Memory.read, h]
  | cons c m ih =>
    obtain ⟨b, w⟩ := c
    simp only [Memory.write]
    split_ifs with h1 h2
    · simp [Memory.read, h]
    · subst h2; simp [Memory.read, h]
    · simp [Memory.read, ih]

/-! ### The canonical form -/

theorem Memory.wf_nil : Memory.wf [] := List.Pairwise.nil

/-- Every address of a memory after a write is the one written, or was there before. -/
theorem Memory.mem_write {m : Memory} {a : Nat} {v : Byte} {c : Host.Cell}
    (h : c ∈ m.write a v) : c = (a, v) ∨ c ∈ m := by
  induction m with
  | nil => simpa [Memory.write] using h
  | cons d m ih =>
    obtain ⟨b, w⟩ := d
    simp only [Memory.write] at h
    split_ifs at h with h1 h2
    · simpa using h
    · rcases List.mem_cons.1 h with h | h
      · exact .inl h
      · exact .inr (List.mem_cons_of_mem _ h)
    · rcases List.mem_cons.1 h with h | h
      · exact .inr (h ▸ List.mem_cons_self ..)
      · exact (ih h).imp id (List.mem_cons_of_mem _)

/-- A write keeps the canonical form. -/
theorem Memory.write_wf {m : Memory} (h : m.wf) (a : Nat) (v : Byte) : (m.write a v).wf := by
  induction m with
  | nil => simp [Memory.write]
  | cons d m ih =>
    obtain ⟨b, w⟩ := d
    obtain ⟨hb, hm⟩ := List.pairwise_cons.1 h
    simp only [Memory.write]
    split_ifs with h1 h2
    · refine List.pairwise_cons.2 ⟨fun c hc => ?_, h⟩
      rcases List.mem_cons.1 hc with rfl | hc
      · exact h1
      · exact h1.trans (hb c hc)
    · exact List.pairwise_cons.2 ⟨fun c hc => h2 ▸ hb c hc, hm⟩
    · refine List.pairwise_cons.2 ⟨fun c hc => ?_, ih hm⟩
      rcases Memory.mem_write hc with rfl | hc
      · show b < a
        omega
      · exact hb c hc

theorem Memory.le_of_mem_ofBytes {base : Nat} {bs : List Byte} {c : Host.Cell}
    (h : c ∈ Memory.ofBytes base bs) : base ≤ c.1 := by
  induction bs generalizing base with
  | nil => simp [Memory.ofBytes] at h
  | cons b bs ih =>
    rcases List.mem_cons.1 h with rfl | h
    · exact le_rfl
    · exact (Nat.le_succ base).trans (ih h)

/-- A sequence laid out as memory is in canonical form. -/
theorem Memory.ofBytes_wf (base : Nat) (bs : List Byte) : (Memory.ofBytes base bs).wf := by
  induction bs generalizing base with
  | nil => exact Memory.wf_nil
  | cons b bs ih =>
    exact List.pairwise_cons.2 ⟨fun c hc => Memory.le_of_mem_ofBytes hc, ih (base + 1)⟩

/-! ### Sequences as memory -/

@[simp] theorem Memory.read_ofBytes (base i : Nat) (bs : List Byte) :
    (Memory.ofBytes base bs).read (base + i) = bs[i]? := by
  induction bs generalizing base i with
  | nil => simp [Memory.ofBytes]
  | cons b bs ih =>
    cases i with
    | zero => simp [Memory.ofBytes, Memory.read]
    | succ i =>
      have : base + (i + 1) = base + 1 + i := by omega
      rw [this]
      simp [Memory.ofBytes, Memory.read, ih, show base + 1 + i ≠ base by omega]

/-- Writing just behind a sequence makes it one byte longer. -/
theorem Memory.write_ofBytes_end (base : Nat) (bs : List Byte) (v : Byte) :
    (Memory.ofBytes base bs).write (base + bs.length) v = Memory.ofBytes base (bs ++ [v]) := by
  induction bs generalizing base with
  | nil => simp [Memory.ofBytes, Memory.write]
  | cons b bs ih =>
    have h : base + (b :: bs).length = base + 1 + bs.length := by simp; omega
    simp only [Memory.ofBytes, Memory.write, h, List.cons_append]
    rw [if_neg (by omega), if_neg (by omega), ih]

theorem Memory.fetch_eq_ok {m : Memory} {a : Nat} {b : Byte} (sp : Space) (h : m.read a = some b) :
    m.fetch sp a = .ok b := by
  simp [Memory.fetch, h]

/-- Reading a stretch of a sequence laid out as memory. -/
theorem Memory.fetchN_ofBytes (sp : Space) (bs : List Byte) (a n : Nat)
    (h : a + n ≤ bs.length) :
    (Memory.ofBytes 0 bs).fetchN sp a n = .ok ((bs.drop a).take n) := by
  induction n generalizing a with
  | zero => simp [Memory.fetchN]
  | succ n ih =>
    have ha : a < bs.length := by omega
    have hr : (Memory.ofBytes 0 bs).read a = some bs[a] := by
      simpa [ha] using Memory.read_ofBytes 0 a bs
    rw [Memory.fetchN, Memory.fetch_eq_ok sp hr, ih (a + 1) (by omega),
      List.drop_eq_getElem_cons ha]
    rfl

/-- A memory fetched past its end: the address that does not exist. -/
theorem Memory.fetch_eq_error {m : Memory} {a : Nat} (sp : Space) (h : m.read a = none) :
    m.fetch sp a = .error (.noSuchByte sp a) := by
  simp [Memory.fetch, h]

end Sys2Proof.Machine
end

