-- ==== Sys2Proof/Laws/State.lean ====
section
/-! SUPPORT. One lemma per field per update of State, so that no proof unfolds a record update. -/

namespace Sys2Proof.Machine

/-! ### beginTxn -/

@[simp] theorem beginTxn_params (bytes : List Byte) (s : State) :
    (beginTxn bytes s).params =
      s.params := rfl
@[simp] theorem beginTxn_request (bytes : List Byte) (s : State) :
    (beginTxn bytes s).request =
      s.request := rfl
@[simp] theorem beginTxn_inp (bytes : List Byte) (s : State) :
    (beginTxn bytes s).inp =
      Memory.ofBytes 0 bytes := rfl
@[simp] theorem beginTxn_out (bytes : List Byte) (s : State) : (beginTxn bytes s).out = [] := rfl
@[simp] theorem beginTxn_status (bytes : List Byte) (s : State) :
    (beginTxn bytes s).status =
      none := rfl
@[simp] theorem beginTxn_response (bytes : List Byte) (s : State) :
    (beginTxn bytes s).response =
      s.response := rfl
@[simp] theorem beginTxn_sink (bytes : List Byte) (s : State) :
    (beginTxn bytes s).sink =
      s.sink := rfl
@[simp] theorem beginTxn_resetLine (bytes : List Byte) (s : State) :
    (beginTxn bytes s).resetLine =
      s.resetLine := rfl
@[simp] theorem beginTxn_draws (bytes : List Byte) (s : State) :
    (beginTxn bytes s).draws =
      s.draws := rfl

/-! ### endTxn -/

@[simp] theorem endTxn_params (r : Response) (s : State) : (endTxn r s).params = s.params := rfl
@[simp] theorem endTxn_request (r : Response) (s : State) : (endTxn r s).request = none := rfl
@[simp] theorem endTxn_inp (r : Response) (s : State) : (endTxn r s).inp = [] := rfl
@[simp] theorem endTxn_out (r : Response) (s : State) : (endTxn r s).out = [] := rfl
@[simp] theorem endTxn_status (r : Response) (s : State) : (endTxn r s).status = none := rfl
@[simp] theorem endTxn_response (r : Response) (s : State) : (endTxn r s).response = some r := rfl
@[simp] theorem endTxn_sink (r : Response) (s : State) : (endTxn r s).sink = s.sink := rfl
@[simp] theorem endTxn_resetLine (r : Response) (s : State) :
    (endTxn r s).resetLine =
      s.resetLine := rfl
@[simp] theorem endTxn_draws (r : Response) (s : State) : (endTxn r s).draws = s.draws := rfl

/-! ### createStatus -/

@[simp] theorem createStatus_params (s : State) : (createStatus s).params = s.params := rfl
@[simp] theorem createStatus_request (s : State) : (createStatus s).request = s.request := rfl
@[simp] theorem createStatus_inp (s : State) : (createStatus s).inp = s.inp := rfl
@[simp] theorem createStatus_out (s : State) : (createStatus s).out = s.out := rfl
@[simp] theorem createStatus_status (s : State) : (createStatus s).status = some 0b0000#4 := rfl
@[simp] theorem createStatus_response (s : State) : (createStatus s).response = s.response := rfl
@[simp] theorem createStatus_sink (s : State) : (createStatus s).sink = s.sink := rfl
@[simp] theorem createStatus_resetLine (s : State) : (createStatus s).resetLine = s.resetLine := rfl
@[simp] theorem createStatus_draws (s : State) : (createStatus s).draws = s.draws := rfl

/-! ### flag -/

@[simp] theorem flag_params (r : Reason) (bad : Bool) (s : State) :
    (flag r bad s).params =
      s.params := rfl
@[simp] theorem flag_request (r : Reason) (bad : Bool) (s : State) :
    (flag r bad s).request =
      s.request := rfl
@[simp] theorem flag_inp (r : Reason) (bad : Bool) (s : State) : (flag r bad s).inp = s.inp := rfl
@[simp] theorem flag_out (r : Reason) (bad : Bool) (s : State) : (flag r bad s).out = s.out := rfl
@[simp] theorem flag_status (r : Reason) (bad : Bool) (s : State) :
    (flag r bad s).status =
      s.status.map (fun st => st ||| ((if bad then 1#4 else 0#4) <<< r.bit)) := rfl
@[simp] theorem flag_response (r : Reason) (bad : Bool) (s : State) :
    (flag r bad s).response =
      s.response := rfl
@[simp] theorem flag_sink (r : Reason) (bad : Bool) (s : State) :
    (flag r bad s).sink =
      s.sink := rfl
@[simp] theorem flag_resetLine (r : Reason) (bad : Bool) (s : State) :
    (flag r bad s).resetLine =
      s.resetLine := rfl
@[simp] theorem flag_draws (r : Reason) (bad : Bool) (s : State) :
    (flag r bad s).draws =
      s.draws := rfl

/-! ### emitRecords -/

@[simp] theorem emitRecords_params (st : Status) (s : State) :
    (emitRecords st s).params =
      s.params := rfl
@[simp] theorem emitRecords_request (st : Status) (s : State) :
    (emitRecords st s).request =
      s.request := rfl
@[simp] theorem emitRecords_inp (st : Status) (s : State) : (emitRecords st s).inp = s.inp := rfl
@[simp] theorem emitRecords_out (st : Status) (s : State) : (emitRecords st s).out = s.out := rfl
@[simp] theorem emitRecords_status (st : Status) (s : State) :
    (emitRecords st s).status =
      s.status := rfl
@[simp] theorem emitRecords_response (st : Status) (s : State) :
    (emitRecords st s).response =
      s.response := rfl
@[simp] theorem emitRecords_sink (st : Status) (s : State) :
    (emitRecords st s).sink =
      s.sink.map (fun log => log ++ arrange (Config.recordOrder s.draws) (reasonsOf st)) := rfl
@[simp] theorem emitRecords_resetLine (st : Status) (s : State) :
    (emitRecords st s).resetLine =
      s.resetLine := rfl
@[simp] theorem emitRecords_draws (st : Status) (s : State) :
    (emitRecords st s).draws =
      s.draws + 1 := rfl

/-! ### present -/

@[simp] theorem present_params (r : Request) (s : State) : (s.present r).params = s.params := rfl
@[simp] theorem present_request (r : Request) (s : State) : (s.present r).request = some r := rfl
@[simp] theorem present_inp (r : Request) (s : State) : (s.present r).inp = s.inp := rfl
@[simp] theorem present_out (r : Request) (s : State) : (s.present r).out = s.out := rfl
@[simp] theorem present_status (r : Request) (s : State) : (s.present r).status = s.status := rfl
@[simp] theorem present_response (r : Request) (s : State) :
    (s.present r).response =
      s.response := rfl
@[simp] theorem present_sink (r : Request) (s : State) : (s.present r).sink = s.sink := rfl
@[simp] theorem present_resetLine (r : Request) (s : State) :
    (s.present r).resetLine =
      s.resetLine := rfl
@[simp] theorem present_draws (r : Request) (s : State) : (s.present r).draws = s.draws := rfl

/-- Nothing of the transaction's IN, W and S survives its end, so what they held does not matter. -/
theorem endTxn_beginTxn (r : Response) (bytes : List Byte) (s : State) :
    endTxn r (beginTxn bytes s) = endTxn r s := rfl

end Sys2Proof.Machine
end

