-- ==== Sys2Proof/Laws/Ops.lean ====
section
/-! SUPPORT. One lemma per shared operation of Ops, Operands and Build: what it does on the states a transaction
puts it in. W holds the bytes `w` when `s.out = Memory.ofBytes 0 w`. -/

namespace Sys2Proof.Machine

/-- The state whose working frame W holds the bytes `w`, offset 0 first. -/
def State.withW (w : List Byte) (s : State) : State := { s with out := Memory.ofBytes 0 w }

theorem State.withW_self {s : State} {w : List Byte} (hs : s.out = Memory.ofBytes 0 w) :
    s.withW w = s := by
  rw [State.withW, ← hs]

@[simp] theorem State.withW_withW (v w : List Byte) (s : State) : (s.withW v).withW w = s.withW w := rfl
@[simp] theorem State.withW_params (w : List Byte) (s : State) : (s.withW w).params = s.params := rfl
@[simp] theorem State.withW_inp (w : List Byte) (s : State) : (s.withW w).inp = s.inp := rfl
@[simp] theorem State.withW_out (w : List Byte) (s : State) :
    (s.withW w).out = Memory.ofBytes 0 w := rfl
@[simp] theorem endTxn_withW (r : Response) (w : List Byte) (s : State) :
    endTxn r (s.withW w) = endTxn r s := rfl

/-! ### Sequencing -/

@[simp] theorem Txn.bind_ok {α β : Type} (a : α) (k : α → Txn β) : ((Except.ok a : Txn α) >>= k) = k a := rfl

@[simp] theorem Txn.bind_error {α β : Type} (f : Fault) (k : α → Txn β) :
    ((Except.error f : Txn α) >>= k) = .error f := rfl

@[simp] theorem Txn.outcome_ok (s : State) : Txn.outcome (.ok s) = .next s := rfl

@[simp] theorem Txn.outcome_error (f : Fault) : Txn.outcome (.error f) = .fault f := rfl

/-- A sequence of two parts that ends well: the first part did. -/
theorem Txn.of_bind_eq_ok {α β : Type} {x : Txn α} {k : α → Txn β} {b : β} (h : (x >>= k) = .ok b) :
    ∃ a, x = .ok a ∧ k a = .ok b := by
  cases x with
  | error f => simp at h
  | ok a => exact ⟨a, rfl, h⟩

/-! ### Reading IN and W -/

theorem readIn_ofBytes {s : State} {bs : List Byte} (hs : s.inp = Memory.ofBytes 0 bs) {a : Nat} {b : Byte}
    (h : bs[a]? = some b) : readIn a s = .ok b := by
  refine Memory.fetch_eq_ok .input ?_
  rw [hs, ← h]
  simpa using Memory.read_ofBytes 0 a bs

theorem readInN_ofBytes {s : State} {bs : List Byte} (hs : s.inp = Memory.ofBytes 0 bs) (a n : Nat)
    (h : a + n ≤ bs.length) : readInN a n s = .ok ((bs.drop a).take n) := by
  rw [readInN, hs, Memory.fetchN_ofBytes .input bs a n h]

theorem readOutN_ofBytes {s : State} {w : List Byte} (hs : s.out = Memory.ofBytes 0 w) (a n : Nat)
    (h : a + n ≤ w.length) : readOutN a n s = .ok ((w.drop a).take n) := by
  rw [readOutN, hs, Memory.fetchN_ofBytes .output w a n h]

/-! ### Writing W -/

/-- A write that ends well wrote an existing offset of W, and nothing else changed. -/
theorem writeOut_eq_ok {a : Nat} {v : Byte} {s t : State} (h : writeOut a v s = .ok t) :
    a < 19 ∧ t = { s with out := s.out.write a v } := by
  unfold writeOut at h
  split at h
  · exact ⟨‹_›, (Except.ok.inj h).symm⟩
  · simp at h

/-- W after a write is in canonical form if it was before. -/
theorem writeOut_keeps_wf {a : Nat} {v : Byte} {s t : State} (h : writeOut a v s = .ok t)
    (hs : s.out.wf) : t.out.wf := by
  obtain ⟨-, rfl⟩ := writeOut_eq_ok h
  exact Memory.write_wf hs a v

/-- A write just behind the bytes W holds makes them one longer. -/
theorem writeOut_end {s : State} {w : List Byte} (hs : s.out = Memory.ofBytes 0 w) {a : Nat}
    (ha : a = w.length) (h : a < 19) (v : Byte) :
    writeOut a v s = .ok (s.withW (w ++ [v])) := by
  have hw := Memory.write_ofBytes_end 0 w v
  rw [Nat.zero_add] at hw
  rw [writeOut, if_pos (show a < Config.frameLen from h), hs, ha, hw]
  rfl

theorem writeOut_withW (s : State) {w : List Byte} {a : Nat} (ha : a = w.length) (h : a < 19) (v : Byte) :
    writeOut a v (s.withW w) = .ok (s.withW (w ++ [v])) :=
  writeOut_end (s := s.withW w) rfl ha h v

/-- R114: the loop of zero bytes. -/
theorem writeZeros_withW (s : State) {w : List Byte} {a : Nat} (ha : a = w.length) (k : Nat)
    (h : a + k ≤ 19) :
    writeZeros a k (s.withW w) = .ok (s.withW (w ++ List.replicate k 0x00#8)) := by
  induction k with
  | zero => simp [writeZeros]
  | succ k ih =>
    rw [writeZeros, ih (by omega), Txn.bind_ok, writeOut_withW s (by simp [ha]) (by omega)]
    rw [List.replicate_succ', List.append_assoc]

/-- R73: the payload loop of BUILD_SET behind the header, run up to element `k`. -/
theorem writeSetPayload_withW {s : State} {w data : List Byte} (hi : s.inp = Memory.ofBytes 0 data)
    (hw : w.length = 3) {n : Nat} (hn : n ≤ data.length) (k : Nat) (hk : k ≤ 16) :
    writeSetPayload n k (s.withW w) =
      .ok (s.withW (w ++ (data.take n).take k ++ List.replicate (k - n) 0x00#8)) := by
  induction k with
  | zero => simp [writeSetPayload]
  | succ k ih =>
    rw [writeSetPayload, ih (by omega), Txn.bind_ok]
    by_cases h : k < n
    · have hd : data[k]? = some (data[k]'(by omega)) := List.getElem?_eq_getElem (by omega)
      have ht : (data.take n).take (k + 1) = (data.take n).take k ++ [data[k]'(by omega)] := by
        rw [List.take_add_one, List.getElem?_take_of_lt h, hd]
        rfl
      rw [if_pos h, readIn_ofBytes (bs := data) (by simpa using hi) hd, Txn.bind_ok, ht]
      refine (writeOut_withW s (by simp [hw, Config.offPayload]; omega)
        (by simp [Config.offPayload]; omega) _).trans ?_
      simp [show k - n = 0 by omega, show k + 1 - n = 0 by omega]
    · have ht : (data.take n).take (k + 1) = (data.take n).take k := by
        rw [List.take_of_length_le (i := k + 1) (by simp; omega),
          List.take_of_length_le (i := k) (by simp; omega)]
      rw [if_neg h, ht, show k + 1 - n = (k - n) + 1 by omega, List.replicate_succ',
        ← List.append_assoc]
      exact writeOut_withW s (by simp [hw, Config.offPayload]; omega) (by simp [Config.offPayload]; omega) _

/-- R74: the payload of BUILD_GET behind the header. -/
theorem writeGetPayload_withW (s : State) {w : List Byte} (hw : w.length = 3) (sub subsub : Byte) :
    writeGetPayload sub subsub (s.withW w) =
      .ok (s.withW (w ++ [sub, subsub] ++ List.replicate 11 0x00#8)) := by
  rw [writeGetPayload, writeOut_withW s (a := Config.offPayload) (by simp [hw, Config.offPayload]) (by decide),
    Txn.bind_ok, writeOut_withW s (a := Config.offPayload + 1) (by simp [hw, Config.offPayload]) (by decide),
    Txn.bind_ok, writeZeros_withW s (a := Config.offPayload + 2) (by simp [hw, Config.offPayload]) _ (by decide),
    List.append_assoc w]
  rfl

/-! ### The parts of a builder -/

/-- R110, R114: the header's three bytes, on a W without any. -/
theorem writeHeader_begin (code item : Byte) (bytes : List Byte) (s : State) :
    writeHeader code item (beginTxn bytes s) =
      .ok ((beginTxn bytes s).withW [s.params.stx, code, item]) := by
  rw [writeHeader, show beginTxn bytes s = (beginTxn bytes s).withW [] from rfl,
    writeOut_withW _ (a := Config.offStx) rfl (by decide), Txn.bind_ok,
    writeOut_withW _ (a := Config.offCode) rfl (by decide), Txn.bind_ok,
    writeOut_withW _ (a := Config.offCtrl) rfl (by decide)]
  rfl

/-- R40, R92, R110, R114: the end marker and the checksum behind sixteen bytes of W. -/
theorem writeTrailer_withW (s : State) {w : List Byte} (hw : w.length = 16) :
    writeTrailer (s.withW w) = .ok (s.withW (w ++ [s.params.etx,
      hiByte (crc16 s.params (w.drop 1 ++ [s.params.etx])),
      loByte (crc16 s.params (w.drop 1 ++ [s.params.etx]))])) := by
  have hd : ((w ++ [s.params.etx]).drop Config.crcStart).take Config.crcLen = w.drop 1 ++ [s.params.etx] := by
    rw [List.drop_append_of_le_length (by simp [Config.crcStart, hw]),
      List.take_of_length_le (by simp [hw, Config.crcStart, Config.crcLen])]
    rfl
  rw [writeTrailer, State.withW_params, writeOut_withW s (by simp [hw, Config.offEtx]) (by decide), Txn.bind_ok,
    readOutN_ofBytes (State.withW_out _ s) _ _ (by simp [hw, Config.crcStart, Config.crcLen]),
    Txn.bind_ok, hd, writeChecksum, State.withW_params,
    writeOut_withW s (by simp [hw, Config.offCrcHi]) (by decide), Txn.bind_ok,
    writeOut_withW s (by simp [hw, Config.offCrcLo]) (by decide)]
  simp only [List.append_assoc, List.cons_append, List.nil_append]

/-- R54: a builder returns the nineteen bytes of W. -/
theorem returnFrame_withW (s : State) {w : List Byte} (hw : w.length = 19) :
    returnFrame (s.withW w) = .ok (endTxn (.frame w) s) := by
  rw [returnFrame, readOutN_ofBytes (State.withW_out w s) _ _ (by simp [hw, Config.frameLen]), Txn.bind_ok]
  simp [Config.frameLen, ← hw]

end Sys2Proof.Machine
end

