-- ==== Sys2Proof/Laws/PerInstr.lean ====
section
/-! SUPPORT. The per-instruction family TableRow: an instruction's encoding carries the bits that its row of
spec/opcode_table.json fixes, in the row's format. -/

namespace Sys2Proof.Laws.TableRow

/-- The row's format and bits: an operation's OP[1:0] (mask 0x3), or a frame's code byte (mask 0xFF); the row
RSP_UNNAMED takes any byte that no other code row takes. -/
def Statement (i : Instr) : Prop :=
  match i with
  | .crc16 _ => ∃ p, encode i = .select 0x0#2 p
  | .buildSet _ _ _ => ∃ p, encode i = .select 0x1#2 p
  | .buildGet _ _ _ => ∃ p, encode i = .select 0x2#2 p
  | .validate _ => ∃ p, encode i = .select 0x3#2 p
  | .setCode _ => (encode i).tableWord = 0x21#8
  | .getCode _ => (encode i).tableWord = 0x31#8
  | .rspOk _ => (encode i).tableWord = 0xA0#8
  | .rspNe1 _ => (encode i).tableWord = 0xA2#8
  | .rspNe2 _ => (encode i).tableWord = 0xA3#8
  | .rspFail _ => (encode i).tableWord = 0xA4#8
  | .rspOther _ => (encode i).tableWord = 0xA5#8
  | .rspA9 _ => (encode i).tableWord = 0xA9#8
  | .rspUnnamed _ _ => i.wf = true → (encode i).tableWord ∉
      [0x21#8, 0x31#8, 0xA0#8, 0xA2#8, 0xA3#8, 0xA4#8, 0xA5#8, 0xA9#8]

theorem crc16 (bytes : List Byte) : Statement (.crc16 bytes) := ⟨_, rfl⟩
theorem buildSet (item : Byte) (data : List Byte) (length : Nat) :
    Statement (.buildSet item data length) := ⟨_, rfl⟩
theorem buildGet (item sub subsub : Byte) : Statement (.buildGet item sub subsub) := ⟨_, rfl⟩
theorem validate (frame : List Byte) : Statement (.validate frame) := ⟨_, rfl⟩
theorem setCode (rest : Envelope) : Statement (.setCode rest) := rfl
theorem getCode (rest : Envelope) : Statement (.getCode rest) := rfl
theorem rspOk (rest : Envelope) : Statement (.rspOk rest) := rfl
theorem rspNe1 (rest : Envelope) : Statement (.rspNe1 rest) := rfl
theorem rspNe2 (rest : Envelope) : Statement (.rspNe2 rest) := rfl
theorem rspFail (rest : Envelope) : Statement (.rspFail rest) := rfl
theorem rspOther (rest : Envelope) : Statement (.rspOther rest) := rfl
theorem rspA9 (rest : Envelope) : Statement (.rspA9 rest) := rfl
theorem rspUnnamed (code : Byte) (rest : Envelope) : Statement (.rspUnnamed code rest) := by
  intro h
  have hc : (Config.namedCodes.contains code) = false := by
    simp only [Instr.wf, Bool.and_eq_true, Bool.not_eq_true'] at h
    exact h.1
  have hw : (encode (.rspUnnamed code rest)).tableWord = code := rfl
  rw [hw]
  intro hm
  rw [List.contains_eq_mem, decide_eq_false_iff_not] at hc
  exact hc hm

end Sys2Proof.Laws.TableRow
end

