-- ==== Sys2Proof/Laws/Validate.lean ====
section
/-! SUPPORT. What the checks, the records and VALIDATE's shared operation do. -/

namespace Sys2Proof.Machine

/-! ### Records -/

/-- Whatever the free value is, `arrange` only reorders. -/
theorem arrange_perm (k : Nat) (rs : List Reason) : (arrange k rs).Perm rs := by
  induction rs generalizing k with
  | nil => simp [arrange]
  | cons r rs ih =>
    have h := ih (k / (rs.length + 1))
    have hl : k % (rs.length + 1) ≤ (arrange (k / (rs.length + 1)) rs).length := by
      rw [h.length_eq]
      exact Nat.le_of_lt_succ (Nat.mod_lt _ (Nat.succ_pos _))
    exact (List.perm_insertIdx _ _ hl).trans (h.cons r)

/-- R149: the reasons reported are the set bits. -/
theorem mem_reasonsOf {r : Reason} {st : Status} : r ∈ reasonsOf st ↔ st.getLsbD r.bit = true := by
  cases r <;> simp [reasonsOf, Reason.all]

theorem reasonsOf_nodup (st : Status) : (reasonsOf st).Nodup :=
  List.Nodup.filter _ (by decide)

/-! ### VALIDATE -/

/-- R140 to R145: on 19 bytes VALIDATE answers the status whose bits are the four conditions, and leaves
nothing of its own behind but the records. -/
theorem validateFrame_next {f : List Byte} {s : State} {b0 b1 b16 hi lo : Byte} (hf : f.length = 19)
    (h0 : f[0]? = some b0) (h1 : f[1]? = some b1) (h16 : f[16]? = some b16)
    (h17 : f[17]? = some hi) (h18 : f[18]? = some lo) :
    ∃ st : Status, validateFrame f s = .next (endTxn (.status st) (emitRecords st s)) ∧
      st.getLsbD 0 = startBad s.params b0 ∧ st.getLsbD 1 = codeBad b1 ∧
      st.getLsbD 2 = endBad s.params b16 ∧
      st.getLsbD 3 = checksumBad s.params hi lo ((f.drop 1).take 16) := by
  have hc : ∀ t : State, t.inp = Memory.ofBytes 0 f →
      readInN Config.crcStart Config.crcLen t = .ok ((f.drop 1).take 16) :=
    fun t ht => readInN_ofBytes ht 1 16 (by omega)
  refine ⟨((((0b0000#4 ||| (if startBad s.params b0 then 1#4 else 0#4) <<< Reason.badStart.bit) |||
    (if codeBad b1 then 1#4 else 0#4) <<< Reason.badCode.bit) |||
    (if endBad s.params b16 then 1#4 else 0#4) <<< Reason.badEnd.bit) |||
    (if checksumBad s.params hi lo ((f.drop 1).take 16) then 1#4 else 0#4) <<<
      Reason.badChecksum.bit), ?_, ?_⟩
  · rw [validateFrame, if_neg (show ¬f.length ≠ Config.frameLen from not_not.2 hf)]
    simp only [checkStart, checkCode, checkEnd, checkChecksum]
    rw [readIn_ofBytes (bs := f) (a := Config.offStx) rfl h0, Txn.bind_ok, Txn.bind_ok,
      readIn_ofBytes (bs := f) (a := Config.offCode) rfl h1, Txn.bind_ok, Txn.bind_ok,
      readIn_ofBytes (bs := f) (a := Config.offEtx) rfl h16, Txn.bind_ok, Txn.bind_ok,
      readIn_ofBytes (bs := f) (a := Config.offCrcHi) rfl h17, Txn.bind_ok,
      readIn_ofBytes (bs := f) (a := Config.offCrcLo) rfl h18, Txn.bind_ok, hc _ rfl, Txn.bind_ok,
      Txn.bind_ok]
    rfl
  · simp only [Reason.bit]
    cases startBad s.params b0 <;> cases codeBad b1 <;> cases endBad s.params b16 <;>
      cases checksumBad s.params hi lo ((f.drop 1).take 16) <;> decide

/-- R148: any other length raises F_FRAME_LENGTH. -/
theorem validateFrame_fault {f : List Byte} {s : State} (hf : f.length ≠ 19) :
    validateFrame f s = .fault (.frameLength f.length) := by
  rw [validateFrame, if_pos (show f.length ≠ Config.frameLen from hf)]
  rfl

/-! ### The code-byte rows -/

theorem exec_validate (f : List Byte) (s : State) : exec (.validate f) s = validateFrame f s := rfl

/-- Whatever its code, a wire frame is answered as VALIDATE answers it. -/
theorem exec_codeInstr (c : Byte) (e : Envelope) (s : State) :
    exec (codeInstr c e) s = validateFrame (e.toFrame c) s := by
  unfold codeInstr
  split_ifs <;> subst_vars <;> rfl

end Sys2Proof.Machine
end

