-- ==== Sys2Proof/Tests/Slice0.lean ====
section
/-! SUPPORT. Tests, their expected values from the spec's tables and vectors (95_test_vectors.md), and a
witness for the hypotheses of every obligation that has some. The vectors are under R12's reference
configurations Config.refA and Config.refB. -/

namespace Sys2Proof.Tests

open Sys2Proof.Machine
open Sys2Proof.Config (refA refB)

/-! ### Helpers -/

/-- A block with given parameters, after reset. -/
def fresh (p : Params) : State := { State.reset with params := p }

/-- The bytes 0x01, 0x02, … -/
def countUp (n : Nat) : List Byte := (List.range n).map (fun i => BitVec.ofNat 8 (i + 1))

/-- The frame 02 cc 10 01 02 00x11 03 hi lo of section 4.1. -/
def frame41 (cc hi lo : Byte) : List Byte :=
  [0x02#8, cc, 0x10#8, 0x01#8, 0x02#8] ++ List.replicate 11 0x00#8 ++ [0x03#8, hi, lo]

/-- The answer of an instruction run on its own. -/
def ans (p : Params) (i : Instr) : Answer := Answer.of (exec i (fresh p))

/-- The other fields of `frame41`. -/
def env41 (hi lo : Byte) : Envelope :=
  { stx := 0x02#8, ctrl := 0x10#8, payload := [0x01#8, 0x02#8] ++ List.replicate 11 0x00#8
    etx := 0x03#8, crcHi := hi, crcLo := lo }

/-! ### WellFormed: each check refuses an ill-formed term -/

theorem test_wf_refuses_short_payload :
    (Instr.rspOk { env41 0x00#8 0x00#8 with payload := List.replicate 12 0x00#8 }).wf = false := by decide
theorem test_wf_refuses_long_payload :
    (Instr.setCode { env41 0x00#8 0x00#8 with payload := List.replicate 14 0x00#8 }).wf = false := by decide
theorem test_wf_refuses_named_code_as_unnamed :
    (Instr.rspUnnamed 0xA2#8 (env41 0x00#8 0x00#8)).wf = false := by decide
theorem test_wf_refuses_unnamed_short_payload :
    (Instr.rspUnnamed 0xA1#8 { env41 0x00#8 0x00#8 with payload := [] }).wf = false := by decide
theorem test_wf_takes_unnamed_code :
    (Instr.rspUnnamed 0xA1#8 (env41 0x00#8 0x00#8)).wf = true := by decide

/-! ### Decode: every row, its word written out from the table of R69 and R64 to R67 -/

/-- Operand ports that hold something different each. -/
def ports : Ports :=
  { bytes := [0x31#8], item := 0x10#8, data := [0x01#8, 0x02#8], length := 2, sub := 0x05#8
    subsub := 0x06#8, frame := frame41 0xA0#8 0xAB#8 0x21#8 }

theorem test_decode_crc16 : decode (.select 0b00#2 ports) = .ok (.crc16 [0x31#8]) := by rfl
theorem test_decode_buildSet :
    decode (.select 0b01#2 ports) = .ok (.buildSet 0x10#8 [0x01#8, 0x02#8] 2) := by rfl
theorem test_decode_buildGet :
    decode (.select 0b10#2 ports) = .ok (.buildGet 0x10#8 0x05#8 0x06#8) := by rfl
theorem test_decode_validate :
    decode (.select 0b11#2 ports) = .ok (.validate (frame41 0xA0#8 0xAB#8 0x21#8)) := by rfl
theorem test_decode_setCode :
    decode (.wire (frame41 0b0010_0001#8 0x0B#8 0x74#8)) = .ok (.setCode (env41 0x0B#8 0x74#8)) := by rfl
theorem test_decode_getCode :
    decode (.wire (frame41 0b0011_0001#8 0x28#8 0x7E#8)) = .ok (.getCode (env41 0x28#8 0x7E#8)) := by rfl
theorem test_decode_rspOk :
    decode (.wire (frame41 0b1010_0000#8 0xAB#8 0x21#8)) = .ok (.rspOk (env41 0xAB#8 0x21#8)) := by rfl
theorem test_decode_rspNe1 :
    decode (.wire (frame41 0b1010_0010#8 0xEB#8 0x48#8)) = .ok (.rspNe1 (env41 0xEB#8 0x48#8)) := by rfl
theorem test_decode_rspNe2 :
    decode (.wire (frame41 0b1010_0011#8 0x43#8 0x6C#8)) = .ok (.rspNe2 (env41 0x43#8 0x6C#8)) := by rfl
theorem test_decode_rspFail :
    decode (.wire (frame41 0b1010_0100#8 0x2B#8 0xF3#8)) = .ok (.rspFail (env41 0x2B#8 0xF3#8)) := by rfl
theorem test_decode_rspOther :
    decode (.wire (frame41 0b1010_0101#8 0x83#8 0xD7#8)) = .ok (.rspOther (env41 0x83#8 0xD7#8)) := by rfl
theorem test_decode_rspA9 :
    decode (.wire (frame41 0b1010_1001#8 0x12#8 0x80#8)) = .ok (.rspA9 (env41 0x12#8 0x80#8)) := by rfl
theorem test_decode_rspUnnamed :
    decode (.wire (frame41 0b1010_0001#8 0x03#8 0x05#8)) = .ok (.rspUnnamed 0xA1#8 (env41 0x03#8 0x05#8)) := by
  rfl
theorem test_decode_short_buffer :
    decode (.wire (List.replicate 18 0x00#8)) = .error (.frameLength 18) := by rfl
theorem test_named_codes_distinct : Config.namedCodes.Nodup := by decide
theorem test_unnamed_codes_are_248 :
    ((List.range 256).filter (fun c => !Config.namedCodes.contains (BitVec.ofNat 8 c))).length = 248 := by
  decide +kernel
/-- The words that the host presents after reset complete: one operation, one code row, the fixed-length one. -/
theorem test_table_word_runs :
    (match step (State.reset.withFetchWord 8 0x31) with | .next t => t.request.isNone | _ => false) = true := by
  rfl
theorem test_table_word_validate_runs :
    (match step (State.reset.withFetchWord 8 3) with | .next t => t.request.isNone | _ => false) = true := by
  rfl

/-! ### CRC16 (section 2) -/

/-- V-C1 and V-C2: "123456789". -/
theorem test_crc_check_refA : ans refA (.crc16 [0x31#8, 0x32#8, 0x33#8, 0x34#8, 0x35#8, 0x36#8, 0x37#8,
    0x38#8, 0x39#8]) = .response (.crc 0x29B1#16) := by decide +kernel
theorem test_crc_check_refB : ans refB (.crc16 [0x31#8, 0x32#8, 0x33#8, 0x34#8, 0x35#8, 0x36#8, 0x37#8,
    0x38#8, 0x39#8]) = .response (.crc 0xBB3D#16) := by decide +kernel

/-! ### The builders (section 3) -/

/-- S1, V-B1. -/
theorem test_build_set_S1 : ans refA (.buildSet 0x10#8 [0x01#8, 0x02#8] 2) =
    .response (.frame (frame41 0x21#8 0x0B#8 0x74#8)) := by decide +kernel
/-- V-B5, in REF-B: truncation. -/
theorem test_build_set_truncates : ans refB (.buildSet 0x7F#8 (countUp 15) 15) =
    .response (.frame ([0x02#8, 0x21#8, 0x7F#8] ++ countUp 13 ++ [0x03#8, 0x67#8, 0x1C#8])) := by decide +kernel
/-- V-B8. -/
theorem test_build_set_underrun :
    ans refA (.buildSet 0x10#8 [0x01#8] 5) = .fault (.payloadUnderrun 5 1) := by decide +kernel
/-- V-G3. -/
theorem test_build_get_G3 : ans refA (.buildGet 0x10#8 0x01#8 0x02#8) =
    .response (.frame (frame41 0x31#8 0x28#8 0x7E#8)) := by decide +kernel
/-- V-G2, in REF-B. -/
theorem test_build_get_zero : ans refB (.buildGet 0x00#8 0x00#8 0x00#8) =
    .response (.frame ([0x02#8, 0x31#8] ++ List.replicate 14 0x00#8 ++ [0x03#8, 0x85#8, 0x95#8])) := by
  decide +kernel

/-! ### VALIDATE and the code rows (section 4) -/

/-- V-X10: the stored checksum's bytes swapped. -/
theorem test_validate_byte_order :
    ans refA (.validate (frame41 0xA0#8 0x21#8 0xAB#8)) = .response (.status 0b1000#4) := by decide +kernel
/-- V-M2: all four reasons at once. -/
theorem test_validate_all_failures : ans refA (.validate ([0x00#8, 0xA4#8, 0x10#8, 0x01#8, 0x02#8] ++
    List.replicate 11 0x00#8 ++ [0x00#8, 0xAB#8, 0x21#8])) = .response (.status 0b1111#4) := by decide +kernel
/-- V-M4: 18 bytes. -/
theorem test_validate_short :
    ans refA (.validate (List.replicate 18 0x00#8)) = .fault (.frameLength 18) := by decide +kernel
/-- V-M3, in REF-B: the zero frame's stored checksum is right. -/
theorem test_validate_zeros_refB :
    ans refB (.validate (List.replicate 19 0x00#8)) = .response (.status 0b0111#4) := by decide +kernel
/-- V-V8. -/
theorem test_row_set : ans refA (.setCode (env41 0x0B#8 0x74#8)) = .response (.status 0b0010#4) := by decide +kernel
/-- V-V9. -/
theorem test_row_get : ans refA (.getCode (env41 0x28#8 0x7E#8)) = .response (.status 0b0010#4) := by decide +kernel
/-- V-V1. -/
theorem test_row_ok : ans refA (.rspOk (env41 0xAB#8 0x21#8)) = .response (.status 0b0000#4) := by decide +kernel
/-- V-V3, S7. -/
theorem test_row_ne1 : ans refA (.rspNe1 (env41 0xEB#8 0x48#8)) = .response (.status 0b0010#4) := by decide +kernel
/-- V-V4. -/
theorem test_row_ne2 : ans refA (.rspNe2 (env41 0x43#8 0x6C#8)) = .response (.status 0b0000#4) := by decide +kernel
/-- V-V5. -/
theorem test_row_fail : ans refA (.rspFail (env41 0x2B#8 0xF3#8)) = .response (.status 0b0010#4) := by decide +kernel
/-- V-V6. -/
theorem test_row_other : ans refA (.rspOther (env41 0x83#8 0xD7#8)) = .response (.status 0b0010#4) := by decide +kernel
/-- V-V7, S8. -/
theorem test_row_a9 : ans refA (.rspA9 (env41 0x12#8 0x80#8)) = .response (.status 0b0000#4) := by decide +kernel
/-- V-V2. -/
theorem test_row_unnamed :
    ans refA (.rspUnnamed 0xA1#8 (env41 0x03#8 0x05#8)) = .response (.status 0b0010#4) := by decide +kernel

/-! ### Witnesses: each obligation's hypotheses are met, every clause at its boundary values

Obligations without a hypothesis (or with one that any value meets) need none. -/

theorem witness_payload_of_13 : (env41 0x00#8 0x00#8).payload.length = 13 := by rfl
/-- CodeByteSelectsRow, RejectedCodeRowsReportBadCode: unnamed codes beside the named ones, and both ends. -/
theorem witness_unnamed_codes : ∀ c ∈ [0x00#8, 0x20#8, 0x22#8, 0xA1#8, 0xA6#8, 0xA8#8, 0xAA#8, 0xFF#8],
    c ∉ [0x21#8, 0x31#8, 0xA0#8, 0xA2#8, 0xA3#8, 0xA4#8, 0xA5#8, 0xA9#8] := by decide
/-- FieldViewShowsEveryByte, ReflectionReversesBits, StoredChecksumIsBigEndian: both ends of their ranges. -/
theorem witness_index_ranges : (0 < 13 ∧ 12 < 13) ∧ (0 < 8 ∧ 7 < 8) ∧ (0 < 16 ∧ 15 < 16) := by decide
/-- DecodeEncodeGivesInstructionBack. -/
theorem witness_wf : (Instr.getCode (env41 0x00#8 0x00#8)).wf = true := by decide
/-- EncodeDecodeGivesRequestBack, WireFrameIsAnsweredAsValidate: test_decode_rspOk and test_decode_buildSet are
such requests; FieldViewShowsEveryByte: such a sequence. -/
theorem witness_frame_length : (frame41 0xA0#8 0xAB#8 0x21#8).length = 19 := by rfl

/-- A block with a request presented. -/
def asked (r : Request) : State := (fresh refA).present r

/-- StepRunsDecodedInstruction, first clause. -/
theorem witness_step_decodes : (asked (.select 0b00#2 ports)).resetLine = false ∧
    (asked (.select 0b00#2 ports)).request = some (.select 0b00#2 ports) ∧
    decode (.select 0b00#2 ports) = .ok (.crc16 [0x31#8]) := ⟨rfl, rfl, rfl⟩
/-- StepRunsDecodedInstruction, second clause. -/
theorem witness_step_no_frame : (asked (.wire [])).resetLine = false ∧ (asked (.wire [])).request = some (.wire []) ∧
    decode (.wire []) = .error (.frameLength 0) := ⟨rfl, rfl, rfl⟩
/-- StepWithoutRequestChangesNothing. -/
theorem witness_no_request : State.reset.resetLine = false ∧ State.reset.request = none := ⟨rfl, rfl⟩
/-- ResetEndsTransactionWithoutResponse, both clauses. -/
theorem witness_reset_line : ({ fresh refA with resetLine := true }).resetLine = true ∧
    ({ fresh refA with resetLine := true }).request = none ∧
    ({ asked (.wire []) with resetLine := true }).request = some (.wire []) := ⟨rfl, rfl, rfl⟩

theorem reset_inv : Inv State.reset :=
  ⟨Memory.wf_nil, Memory.wf_nil, ⟨rfl, rfl, rfl⟩, fun f h => by simp [State.reset] at h⟩

/-- StepKeepsInvariant, StepKeepsParameters, StepOnlyAddsRecords: a step that answers a request. -/
theorem witness_inv_step : Inv (asked (.select 0b00#2 ports)) ∧
    ∃ t, step (asked (.select 0b00#2 ports)) = .next t ∧ t.response ≠ none := by
  refine ⟨⟨Memory.wf_nil, Memory.wf_nil, ⟨rfl, rfl, rfl⟩, fun f h => ?_⟩, _, rfl, by decide⟩
  simp [asked, fresh, State.present, State.reset] at h
/-- StepOnlyAddsRecords, both clauses: no sink, and an attached one. -/
theorem witness_sinks : (fresh refA).sink = none ∧
    ∃ t, step { asked (.wire (frame41 0xA1#8 0x03#8 0x05#8)) with sink := some [.badEnd] } = .next t :=
  ⟨rfl, _, rfl⟩
/-- R149: one record, behind those already received. -/
theorem test_record_reaches_sink :
    (emitRecords 0b0010#4 { fresh refA with sink := some [.badEnd] }).sink = some [.badEnd, .badCode] := by
  have h : reasonsOf 0b0010#4 = [.badCode] := by decide
  simp [h, arrange, Nat.mod_one]
/-- TransactionLeavesNothingButAnswer: each kind of instruction completes somewhere. -/
theorem witness_transactions : (∃ t, exec (.crc16 []) (fresh refA) = .next t) ∧
    (∃ t, exec (.buildSet 0x00#8 [] 0) (fresh refA) = .next t) ∧
    (∃ t, exec (.buildGet 0x00#8 0x00#8 0x00#8) (fresh refA) = .next t) ∧
    (∃ t, exec (.validate (frame41 0xA0#8 0xAB#8 0x21#8)) (fresh refA) = .next t) :=
  ⟨⟨_, rfl⟩, ⟨_, rfl⟩, ⟨_, rfl⟩, ⟨_, rfl⟩⟩

/-- CrcIsLinear. -/
theorem witness_equal_lengths : [0x00#8, 0xFF#8].length = [0x01#8, 0x02#8].length := rfl
/-- OddPolynomialDetectsSingleByteChange. -/
theorem witness_odd_polynomial : refA.crcPoly.getLsbD 0 = true ∧ refB.crcPoly.getLsbD 0 = true := by decide

/-- BuildSetAnswersSetFrame: both clauses at their boundary, with LENGTH below, at and above 13. -/
theorem witness_build_set_enough : min 0 13 ≤ ([] : List Byte).length ∧ min 13 13 ≤ (countUp 13).length ∧
    min 200 13 ≤ (countUp 13).length := by decide
theorem witness_build_set_underrun : ([] : List Byte).length < min 1 13 ∧ (countUp 12).length < min 13 13 ∧
    (countUp 12).length < min 200 13 := by decide
/-- BuildSetTruncatesLongPayload. -/
theorem witness_truncation : 13 < 14 ∧ 13 ≤ (countUp 13).length := by decide
/-- BuildSetZeroFillsPayload: the first and the last filled byte. -/
theorem witness_zero_fill : min 2 13 ≤ (countUp 3).length ∧ (min 2 13 ≤ 2 ∧ 2 ≤ 12) ∧ (min 2 13 ≤ 12 ∧ 12 ≤ 12) := by
  decide
/-- BuildSetReadsOnlyFirstBytes: two buffers that differ behind byte n. -/
theorem witness_same_first_bytes : min 2 13 ≤ [0x01#8, 0x02#8, 0x03#8].length ∧
    [0x01#8, 0x02#8, 0x03#8].take (min 2 13) = [0x01#8, 0x02#8, 0x04#8].take (min 2 13) := by decide

theorem responds_of_ans {p : Params} {i : Instr} {r : Response} (h : ans p i = .response r) :
    Responds i (fresh p) r := by
  unfold ans at h
  cases he : exec i (fresh p) with
  | next t =>
    rw [he] at h
    cases ht : t.response with
    | none => simp [Answer.of, ht] at h
    | some x =>
      simp only [Answer.of, ht, Answer.response.injEq] at h
      exact ⟨t, he, h ▸ ht⟩
  | fault f => rw [he] at h; simp [Answer.of] at h
  | refused f => rw [he] at h; simp [Answer.of] at h

/-- BuiltFrameValidatesToBadCodeAlone, BuiltFrameIsOfItsCodeRow. -/
theorem witness_built_frames :
    Responds (.buildSet 0x10#8 [0x01#8, 0x02#8] 2) (fresh refA) (.frame (frame41 0x21#8 0x0B#8 0x74#8)) ∧
    Responds (.buildGet 0x10#8 0x01#8 0x02#8) (fresh refA) (.frame (frame41 0x31#8 0x28#8 0x7E#8)) :=
  ⟨responds_of_ans test_build_set_S1, responds_of_ans test_build_get_G3⟩

/-- REF-A's inner step loses nothing. -/
theorem refA_crcBits_injective (k : Nat) (x y : Bits16) (h : crcBits refA k x = crcBits refA k y) : x = y := by
  induction k generalizing x y with
  | zero => exact h
  | succ k ih =>
    have hb : crcBit refA x = crcBit refA y := ih _ _ h
    have h15 : x.getLsbD 15 = y.getLsbD 15 := by
      rw [← crcBit_getLsbD_zero (p := refA) rfl, ← crcBit_getLsbD_zero (p := refA) rfl, hb]
    have hs : x <<< 1 = y <<< 1 := by
      unfold crcBit at hb
      rw [h15] at hb
      split at hb
      · exact (BitVec.xor_left_inj _).1 hb
      · exact hb
    refine BitVec.eq_of_getLsbD_eq fun i hi => ?_
    by_cases hi15 : i = 15
    · exact hi15 ▸ h15
    · have hbit := congrArg (fun z => z.getLsbD (i + 1)) hs
      simpa [show i + 1 < 16 by omega, BitVec.getLsbD_eq_getElem hi] using hbit

/-- The SingleByteDetect hypothesis (R11) is met by REF-A. -/
theorem witness_singleByteDetect : SingleByteDetect refA := by
  intro before after b c hbc h
  have hreg : ∀ (l : List Byte) (x y : Bits16), crcRegister refA x l = crcRegister refA y l → x = y := by
    intro l
    induction l with
    | nil => exact fun x y h => h
    | cons d l ih => exact fun x y h => (BitVec.xor_left_inj _).1 (refA_crcBits_injective 8 _ _ (ih _ _ h))
  have h1 : crcRegister refA refA.crcInit (before ++ b :: after) =
      crcRegister refA refA.crcInit (before ++ c :: after) := (BitVec.xor_left_inj _).1 h
  rw [crcRegister_append, crcRegister_append] at h1
  have h2 := (BitVec.xor_right_inj _).1 (refA_crcBits_injective 8 _ _ (hreg after _ _ h1))
  apply hbc
  refine BitVec.eq_of_getLsbD_eq fun i hi => ?_
  have hbit := congrArg (fun z => z.getLsbD (i + 8)) h2
  simpa [crcInput, refA, show i + 8 < 16 by omega, show i < 16 by omega,
    BitVec.getLsbD_eq_getElem hi] using hbit

/-- RoundTripOfBuiltFrame: with witness_built_frames and witness_singleByteDetect, every accepted code. -/
theorem witness_accepted_codes : ∀ r ∈ Config.accepted, r ∈ [0xA0#8, 0xA3#8, 0xA9#8] := by decide

/-- ValidateReportsEveryFailure, first clause (StatusOkMeansWellFormedFrame, CodeCheckAcceptsExactlyThreeCodes:
such a frame), with both stored bytes. -/
theorem witness_validate_19 : (frame41 0xA2#8 0xEB#8 0x48#8).length = 19 ∧
    (frame41 0xA2#8 0xEB#8 0x48#8)[1]? = some 0xA2#8 ∧ (frame41 0xA2#8 0xEB#8 0x48#8)[17]? = some 0xEB#8 ∧
    (frame41 0xA2#8 0xEB#8 0x48#8)[18]? = some 0x48#8 := by decide
/-- ValidateReportsEveryFailure, second clause, on both sides of 19. -/
theorem witness_validate_other_lengths : (List.replicate 18 0x00#8).length ≠ 19 ∧
    (List.replicate 20 0x00#8).length ≠ 19 ∧ ([] : List Byte).length ≠ 19 := by decide
/-- EveryRecordOrderIsAllowed. -/
theorem witness_record_order : [Reason.badEnd, Reason.badStart].Perm [Reason.badStart, Reason.badEnd] := by decide

/-- V-V1 in REF-A: StaleChecksumIsReported, SingleByteChangeOfPassingFrame. -/
theorem witness_passing_frame : PassingFrame refA (frame41 0xA0#8 0xAB#8 0x21#8) :=
  ⟨rfl, rfl, ⟨0xA0#8, by decide, rfl⟩, rfl, 0xAB#8, 0x21#8, rfl, rfl, by decide +kernel⟩
theorem witness_stored_checksum : (frame41 0xA0#8 0xAB#8 0x21#8)[17]? = some 0xAB#8 ∧
    (frame41 0xA0#8 0xAB#8 0x21#8)[18]? = some 0x21#8 ∧
    bytePair 0xAB#8 0x21#8 = frameCrc refA (frame41 0xA0#8 0xAB#8 0x21#8) := by decide +kernel
/-- StaleChecksumIsReported, SingleByteChangeOfPassingFrame: a changed byte at every boundary of their clauses
(V-X1 to V-X9). -/
theorem witness_changed_bytes : ∀ ib ∈ [(0, 0xFF#8), (1, 0xA3#8), (1, 0xA2#8), (2, 0x11#8), (3, 0x81#8), (15, 0x01#8),
    (16, 0x04#8), (17, 0xAA#8), (18, 0xA1#8)], (frame41 0xA0#8 0xAB#8 0x21#8)[ib.1]? ≠ some ib.2 := by decide

/-- RequestFaultsExactlyAsTabled: each fault's condition just met, and just not met. -/
theorem witness_model_faults :
    (Request.select 0b01#2 { ports with length := 3 }).modelFault = some (.payloadUnderrun 3 2) ∧
    (Request.select 0b11#2 { ports with frame := List.replicate 20 0x00#8 }).modelFault = some (.frameLength 20) ∧
    (Request.wire (List.replicate 18 0x00#8)).modelFault = some (.frameLength 18) ∧
    (∀ op : OpCode, (Request.select op ports).modelFault = none) ∧
    (Request.wire (List.replicate 19 0x00#8)).modelFault = none := by decide
/-- AnswerDependsOnRequestAndParametersOnly: two states that differ in all but the parameters. -/
theorem witness_equal_params : (fresh refA).resetLine = false ∧
    ({ fresh refA with sink := some [.badEnd], draws := 7, response := some (.crc 0x0000#16), out := [(0, 0x00#8)] }).resetLine = false ∧
    (fresh refA).params = ({ fresh refA with sink := some [.badEnd], draws := 7, response := some (.crc 0x0000#16), out := [(0, 0x00#8)] }).params :=
  ⟨rfl, rfl, rfl⟩
/-- RunAnswersEachRequestAsAlone, RunSucceedsExactlyWhenFaultFree: P4's two requests in both orders, and a run with
and one without a fault. -/
theorem witness_runs : (fresh refA).resetLine = false ∧
    [Request.select 0b01#2 ports, .select 0b10#2 ports].Perm [.select 0b10#2 ports, .select 0b01#2 ports] ∧
    (∀ r ∈ [Request.select 0b01#2 ports, .select 0b10#2 ports], r.modelFault = none) ∧
    ¬∀ r ∈ [Request.select 0b01#2 ports, .wire []], r.modelFault = none := by decide

end Sys2Proof.Tests
end

/-! PROOFS. What each instruction's transaction and each step can end in, and that the parameters survive it
(R10, R26). -/

namespace Sys2Proof.Machine

/-! ### The operations, each by its whole outcome -/

theorem exec_crc16 (bytes : List Byte) (s : State) :
    exec (.crc16 bytes) s = .next (endTxn (.crc (crc16 s.params bytes)) s) := by
  have hread : readInN 0 bytes.length (beginTxn bytes s) = .ok bytes := by
    simpa using readInN_ofBytes (beginTxn_inp bytes s) 0 bytes.length (by simp)
  change execCrc16 bytes s = _
  simp [execCrc16, hread, endTxn_beginTxn]

/-- R92, R110, R114: the frame of the sixteen bytes `w`, offsets 0 to 15: the end marker and the checksum follow. -/
def completeFrame (p : Params) (w : List Byte) : List Byte :=
  w ++ [p.etx, hiByte (crc16 p (w.drop 1 ++ [p.etx])), loByte (crc16 p (w.drop 1 ++ [p.etx]))]

/-- R110, R114: the end that both builders share. -/
theorem writeTrailer_returnFrame_withW (s : State) {w : List Byte} (hw : w.length = 16) :
    (writeTrailer (s.withW w) >>= returnFrame) = .ok (endTxn (.frame (completeFrame s.params w)) s) := by
  rw [writeTrailer_withW s hw, Txn.bind_ok, returnFrame_withW s (by simp [hw])]
  rfl

/-- R110 to R112: BUILD_SET with enough DATA. -/
theorem exec_buildSet_of_le (item : Byte) {data : List Byte} {length : Nat} (s : State)
    (h : min length 13 ≤ data.length) :
    exec (.buildSet item data length) s = .next (endTxn (.frame (completeFrame s.params
      ([s.params.stx, 0x21#8, item] ++ data.take (min length 13) ++
        List.replicate (13 - min length 13) 0x00#8))) s) := by
  have hcount : setCount length ≤ data.length := h
  have hmax : setCount length ≤ 13 := Nat.min_le_right ..
  have hpayload := writeSetPayload_withW (w := [s.params.stx, Config.codeSet, item]) (beginTxn_inp data s) rfl hcount
    13 (by decide)
  rw [List.take_of_length_le (by simp [hmax])] at hpayload
  change execBuildSet item data length s = _
  rw [execBuildSet, if_neg (not_lt.2 hcount), writeHeader_begin, Txn.bind_ok,
    show Config.payloadLen = 13 from rfl, hpayload, Txn.bind_ok,
    writeTrailer_returnFrame_withW _ (by simp [hcount, hmax])]
  rfl

/-- R113: BUILD_SET without enough DATA. -/
theorem exec_buildSet_of_lt (item : Byte) {data : List Byte} {length : Nat} (s : State)
    (h : data.length < min length 13) :
    exec (.buildSet item data length) s = .fault (.payloadUnderrun length data.length) :=
  if_pos h

/-- R114: BUILD_GET. -/
theorem exec_buildGet (item sub subsub : Byte) (s : State) :
    exec (.buildGet item sub subsub) s = .next (endTxn (.frame (completeFrame s.params
      ([s.params.stx, 0x31#8, item] ++ [sub, subsub] ++ List.replicate 11 0x00#8))) s) := by
  change execBuildGet item sub subsub s = _
  rw [execBuildGet, writeHeader_begin, Txn.bind_ok, writeGetPayload_withW _ rfl, Txn.bind_ok,
    writeTrailer_returnFrame_withW _ rfl]
  rfl

/-! ### What a transaction and a step can end in -/

/-- A validation that completes answers its status and emits that status's records. -/
theorem validateFrame_eq_next {f : List Byte} {s t : State} (h : validateFrame f s = .next t) :
    ∃ st, t = endTxn (.status st) (emitRecords st s) := by
  by_cases hf : f.length = 19
  · have byteAt (k : Nat) (hk : k < 19) : f[k]? = some (f[k]'(hf ▸ hk)) := List.getElem?_eq_getElem _
    obtain ⟨st, hnext, -⟩ := validateFrame_next (s := s) hf (byteAt 0 (by decide)) (byteAt 1 (by decide))
      (byteAt 16 (by decide)) (byteAt 17 (by decide)) (byteAt 18 (by decide))
    exact ⟨st, Host.Outcome.next.inj (h.symm.trans hnext)⟩
  · rw [validateFrame_fault hf] at h
    cases h

/-- R22, R29: a transaction that completes ends with its response; only a validation emits records before. -/
theorem exec_eq_next {i : Instr} {s t : State} (h : exec i s = .next t) :
    (∃ r, t = endTxn r s) ∨ ∃ st, t = endTxn (.status st) (emitRecords st s) := by
  cases i with
  | crc16 bytes =>
    rw [exec_crc16] at h
    exact .inl ⟨_, (Host.Outcome.next.inj h).symm⟩
  | buildSet item data length =>
    rcases le_or_gt (min length 13) data.length with hle | hlt
    · rw [exec_buildSet_of_le item s hle] at h
      exact .inl ⟨_, (Host.Outcome.next.inj h).symm⟩
    · rw [exec_buildSet_of_lt item s hlt] at h
      cases h
  | buildGet item sub subsub =>
    rw [exec_buildGet] at h
    exact .inl ⟨_, (Host.Outcome.next.inj h).symm⟩
  | validate _ | setCode _ | getCode _ | rspOk _ | rspNe1 _ | rspNe2 _ | rspFail _ | rspOther _ | rspA9 _
  | rspUnnamed _ _ => exact .inr (validateFrame_eq_next h)

/-- R21, R22, R191: a step that answers a next state resets, finds no request, or completes a transaction. -/
theorem step_eq_next {s t : State} (h : step s = .next t) :
    (s.resetLine = true ∧ t = resetBlock s) ∨
    (s.resetLine = false ∧ s.request = none ∧ t = s) ∨
    (s.resetLine = false ∧ ∃ r i, s.request = some r ∧ decode r = .ok i ∧ exec i s = .next t) := by
  unfold step at h
  split at h
  next hreset => exact .inl ⟨hreset, (Host.Outcome.next.inj h).symm⟩
  next hreset =>
    rw [Bool.not_eq_true] at hreset
    split at h
    next hreq => exact .inr (.inl ⟨hreset, hreq, (Host.Outcome.next.inj h).symm⟩)
    next r hreq =>
      split at h
      next i hdec => exact .inr (.inr ⟨hreset, r, i, hreq, hdec, h⟩)
      next n _ => cases h

/-! ### The parameters -/

@[simp] theorem resetBlock_params (s : State) : (resetBlock s).params = s.params := by
  unfold resetBlock
  split <;> rfl

theorem exec_params {i : Instr} {s t : State} (h : exec i s = .next t) : t.params = s.params := by
  obtain ⟨r, rfl⟩ | ⟨st, rfl⟩ := exec_eq_next h
  · exact endTxn_params r s
  · rw [endTxn_params, emitRecords_params]

/-- Settles O13: a reset, an idle step and a completed transaction each keep the parameters. -/
theorem stepKeepsParameters : Obligations.StepKeepsParameters := by
  intro s t h
  obtain ⟨-, rfl⟩ | ⟨-, -, rfl⟩ | ⟨-, r, i, -, -, hexec⟩ := step_eq_next h
  · exact resetBlock_params s
  · rfl
  · exact exec_params hexec

end Sys2Proof.Machine

/-! PROOFS. How every instruction ends, as the instruction and the parameters alone decide it (R28, R47); what a
completed transaction leaves behind (R22, R29), and that every step keeps the invariant. -/

namespace Sys2Proof.Machine

/-! ### The step, by what is presented -/

theorem step_of_no_request {s : State} (hreset : s.resetLine = false) (hreq : s.request = none) :
    step s = .next s := by
  simp [step, hreset, hreq]

theorem step_of_decode_ok {s : State} {r : Request} {i : Instr} (hreset : s.resetLine = false)
    (hreq : s.request = some r) (hdec : decode r = .ok i) : step s = exec i s := by
  simp [step, hreset, hreq, hdec]

theorem step_of_decode_error {s : State} {r : Request} {n : Nat} (hreset : s.resetLine = false)
    (hreq : s.request = some r) (hdec : decode r = .error (.frameLength n)) :
    step s = .fault (.frameLength n) := by
  simp [step, hreset, hreq, hdec, raiseFault]

/-- Settles O7: the two ways a presented request can decode. -/
theorem stepRunsDecodedInstruction : Obligations.StepRunsDecodedInstruction :=
  fun _ _ hreset hreq =>
    ⟨fun _ hdec => step_of_decode_ok hreset hreq hdec, fun _ hdec => step_of_decode_error hreset hreq hdec⟩

/-- Settles O8: the step's case without a request. -/
theorem stepWithoutRequestChangesNothing : Obligations.StepWithoutRequestChangesNothing :=
  fun _ hreset hreq => step_of_no_request hreset hreq

/-! ### The frames that are built -/

/-- R92: the checksum of a completed frame is the one written into it. -/
theorem frameCrc_completeFrame {p : Params} {w : List Byte} (hw : w.length = 16) :
    frameCrc p (completeFrame p w) = crc16 p (w.drop 1 ++ [p.etx]) := by
  have hcovered : ((completeFrame p w).drop 1).take 16 = w.drop 1 ++ [p.etx] := by
    rw [completeFrame, List.drop_append_of_le_length (by omega), List.take_append,
      List.take_of_length_le (by simp [hw])]
    simp [hw]
  exact congrArg (crc16 p) hcovered

/-- R116: sixteen bytes with the start marker and an outgoing code, completed, are a frame that R116 allows. -/
theorem builtFrame_completeFrame {p : Params} {w : List Byte} (hw : w.length = 16) (hstx : w[0]? = some p.stx)
    (hcode : w[1]? = some Config.codeSet ∨ w[1]? = some Config.codeGet) :
    BuiltFrame p (completeFrame p w) := by
  have hhead (k : Nat) (hk : k < 16) : (completeFrame p w)[k]? = w[k]? :=
    List.getElem?_append_left (hw ▸ hk)
  have htail (k : Nat) : (completeFrame p w)[16 + k]? = [p.etx, hiByte (crc16 p (w.drop 1 ++ [p.etx])),
      loByte (crc16 p (w.drop 1 ++ [p.etx]))][k]? := by
    rw [completeFrame, List.getElem?_append_right (by omega), hw, Nat.add_sub_cancel_left]
  rw [BuiltFrame, frameCrc_completeFrame hw, hhead 0 (by decide), hhead 1 (by decide)]
  exact ⟨by simp [completeFrame, hw], hstx, hcode, htail 0, htail 1, htail 2⟩

/-! ### How a transaction ends -/

/-- The three ways a transaction ends: with a response alone, with a status and its records (R149), or with a
model fault (R172). -/
inductive Ending where
  | answered (r : Response)
  | validated (st : Status)
  | faulted (f : Fault)

/-- What an ending makes of the state its transaction began in. -/
def Ending.outcome : Ending → State → Host.Outcome State Fault Refusal
  | .answered r, s => .next (endTxn r s)
  | .validated st, s => .next (endTxn (.status st) (emitRecords st s))
  | .faulted f, _ => .fault f

/-- R31, R53, R116: an ending answers no frame but a built one, and accesses no byte that does not exist. -/
def Ending.Allowed (p : Params) : Ending → Prop
  | .answered r => ∀ f, r = .frame f → BuiltFrame p f
  | .validated _ => True
  | .faulted f => ∀ sp a, f ≠ .noSuchByte sp a

theorem Ending.Allowed.answered_frame {p : Params} {f : List Byte} (h : BuiltFrame p f) :
    (Ending.answered (.frame f)).Allowed p :=
  fun _ hf => Response.frame.inj hf ▸ h

theorem status_eq_of_bits {st st' : Status} (h0 : st.getLsbD 0 = st'.getLsbD 0)
    (h1 : st.getLsbD 1 = st'.getLsbD 1) (h2 : st.getLsbD 2 = st'.getLsbD 2)
    (h3 : st.getLsbD 3 = st'.getLsbD 3) : st = st' := by
  refine BitVec.eq_of_getLsbD_eq fun i hi => ?_
  interval_cases i <;> assumption

/-- R140 to R145, R148: a validation's ending depends on the frame and the parameters: the four conditions fix
every bit of the status. -/
theorem validateFrame_ending (f : List Byte) (p : Params) :
    ∃ e : Ending, e.Allowed p ∧ ∀ s, s.params = p → validateFrame f s = e.outcome s := by
  by_cases hf : f.length = 19
  · have byteAt (k : Nat) (hk : k < 19) : f[k]? = some (f[k]'(hf ▸ hk)) := List.getElem?_eq_getElem _
    have validates (s : State) := validateFrame_next (s := s) hf (byteAt 0 (by decide)) (byteAt 1 (by decide))
      (byteAt 16 (by decide)) (byteAt 17 (by decide)) (byteAt 18 (by decide))
    obtain ⟨st, -, h0, h1, h2, h3⟩ := validates { State.reset with params := p }
    refine ⟨.validated st, trivial, fun s hs => ?_⟩
    obtain ⟨st', hnext, h0', h1', h2', h3'⟩ := validates s
    rw [hs] at h0' h2' h3'
    obtain rfl : st' = st := status_eq_of_bits (h0'.trans h0.symm) (h1'.trans h1.symm) (h2'.trans h2.symm)
      (h3'.trans h3.symm)
    exact hnext
  · exact ⟨.faulted (.frameLength f.length), fun _ _ => nofun, fun s _ => validateFrame_fault hf⟩

/-- R28, R47: every instruction has, under each parameter set, one allowed ending, whatever else the state
holds. -/
theorem exec_ending (i : Instr) (p : Params) :
    ∃ e : Ending, e.Allowed p ∧ ∀ s, s.params = p → exec i s = e.outcome s := by
  cases i with
  | crc16 bytes => exact ⟨.answered (.crc (crc16 p bytes)), fun _ => nofun, fun s hs => hs ▸ exec_crc16 bytes s⟩
  | buildSet item data length =>
    rcases le_or_gt (min length 13) data.length with hle | hlt
    · refine ⟨_, .answered_frame (builtFrame_completeFrame ?_ rfl (.inl rfl)),
        fun s hs => hs ▸ exec_buildSet_of_le item s hle⟩
      simp
      omega
    · exact ⟨.faulted (.payloadUnderrun length data.length), fun _ _ => nofun,
        fun s _ => exec_buildSet_of_lt item s hlt⟩
  | buildGet item sub subsub =>
    exact ⟨_, .answered_frame (builtFrame_completeFrame rfl rfl (.inr rfl)),
      fun s hs => hs ▸ exec_buildGet item sub subsub s⟩
  | validate _ | setCode _ | getCode _ | rspOk _ | rspNe1 _ | rspNe2 _ | rspFail _ | rspOther _ | rspA9 _
  | rspUnnamed _ _ => exact validateFrame_ending _ p

/-- Settles O42: no allowed ending is such a fault, and none is a refusal. -/
theorem noAccessOutsideByteSpaces : Obligations.NoAccessOutsideByteSpaces := by
  intro i s
  obtain ⟨e, hallowed, hexec⟩ := exec_ending i s.params
  rw [hexec s rfl]
  cases e with
  | answered r => exact ⟨fun _ _ => nofun, fun _ => nofun⟩
  | validated st => exact ⟨fun _ _ => nofun, fun _ => nofun⟩
  | faulted f => exact ⟨fun sp a h => hallowed sp a (Host.Outcome.fault.inj h), fun _ => nofun⟩

/-- The answer an ending gives does not depend on the state the transaction began in. -/
theorem Ending.answer_outcome (e : Ending) (s t : State) : Answer.of (e.outcome s) = Answer.of (e.outcome t) := by
  cases e <;> rfl

/-- Settles O43: the same instruction with the same ending, or the same fault of a raw buffer. -/
theorem answerDependsOnRequestAndParametersOnly : Obligations.AnswerDependsOnRequestAndParametersOnly := by
  intro s t r hs ht hparams
  have hs' : (s.present r).resetLine = false := (present_resetLine r s).trans hs
  have ht' : (t.present r).resetLine = false := (present_resetLine r t).trans ht
  unfold answer
  cases hdec : decode r with
  | error err =>
    obtain ⟨n⟩ := err
    rw [step_of_decode_error hs' (present_request r s) hdec, step_of_decode_error ht' (present_request r t) hdec]
  | ok i =>
    obtain ⟨e, -, hexec⟩ := exec_ending i s.params
    rw [step_of_decode_ok hs' (present_request r s) hdec, step_of_decode_ok ht' (present_request r t) hdec,
      hexec _ (present_params r s), hexec _ ((present_params r t).trans hparams.symm)]
    exact e.answer_outcome _ _

/-! ### What a completed transaction leaves -/

theorem exec_buildSet_eq_next {item : Byte} {data : List Byte} {length : Nat} {s t : State}
    (h : exec (.buildSet item data length) s = .next t) : ∃ r, t = endTxn r s := by
  rcases le_or_gt (min length 13) data.length with hle | hlt
  · rw [exec_buildSet_of_le item s hle] at h
    exact ⟨_, (Host.Outcome.next.inj h).symm⟩
  · rw [exec_buildSet_of_lt item s hlt] at h
    cases h

/-- Settles O15: the fields that endTxn empties or keeps, and the three operations that end with it alone. -/
theorem transactionLeavesNothingButAnswer : Obligations.TransactionLeavesNothingButAnswer := by
  intro i s t h
  obtain ⟨hreq, hin, hout, hst, hreset, hresp⟩ : t.request = none ∧ t.inp = [] ∧ t.out = [] ∧ t.status = none ∧
      t.resetLine = s.resetLine ∧ ∃ r, t.response = some r := by
    obtain ⟨r, rfl⟩ | ⟨st, rfl⟩ := exec_eq_next h
    · exact ⟨rfl, rfl, rfl, rfl, rfl, r, rfl⟩
    · exact ⟨rfl, rfl, rfl, rfl, rfl, .status st, rfl⟩
  refine ⟨exec_params h, hreq, hin, hout, hst, hreset, hresp, ?_, ?_, ?_⟩
  · rintro bytes rfl
    obtain rfl := Host.Outcome.next.inj ((exec_crc16 bytes s).symm.trans h)
    exact ⟨rfl, rfl⟩
  · rintro item data length rfl
    obtain ⟨r, rfl⟩ := exec_buildSet_eq_next h
    exact ⟨rfl, rfl⟩
  · rintro item sub subsub rfl
    obtain rfl := Host.Outcome.next.inj ((exec_buildGet item sub subsub s).symm.trans h)
    exact ⟨rfl, rfl⟩

/-! ### The invariant -/

/-- A transaction's end meets the invariant, if a frame it answers is one that R116 allows. -/
theorem inv_endTxn {r : Response} {s : State} (h : ∀ f, r = .frame f → BuiltFrame s.params f) :
    Inv (endTxn r s) :=
  ⟨Memory.wf_nil, Memory.wf_nil, ⟨rfl, rfl, rfl⟩, fun f hf => h f (Option.some.inj hf)⟩

/-- R190, R191: reset without a transaction lets the last response stand; with one it empties the response. -/
theorem resetBlock_keeps_inv {s : State} (h : Inv s) : Inv (resetBlock s) := by
  unfold resetBlock
  cases s.request with
  | none => exact h
  | some r => exact ⟨Memory.wf_nil, Memory.wf_nil, ⟨rfl, rfl, rfl⟩, fun _ => nofun⟩

/-- Every completed transaction meets the invariant, whatever held before it. -/
theorem inv_of_exec_eq_next {i : Instr} {s t : State} (h : exec i s = .next t) : Inv t := by
  obtain ⟨e, hallowed, hexec⟩ := exec_ending i s.params
  rw [hexec s rfl] at h
  cases e with
  | answered r =>
    obtain rfl := Host.Outcome.next.inj h
    exact inv_endTxn hallowed
  | validated st =>
    obtain rfl := Host.Outcome.next.inj h
    exact inv_endTxn fun _ => nofun
  | faulted f => cases h

/-- Settles O12: a reset and an idle step keep the invariant, and a completed transaction establishes it. -/
theorem stepKeepsInvariant : Obligations.StepKeepsInvariant := by
  intro s t hinv h
  obtain ⟨-, rfl⟩ | ⟨-, -, rfl⟩ | ⟨-, r, i, -, -, hexec⟩ := step_eq_next h
  · exact resetBlock_keeps_inv hinv
  · exact hinv
  · exact inv_of_exec_eq_next hexec

end Sys2Proof.Machine

/-! PROOFS. The byte order of a stored checksum (R40, R63), the bytes of DATA that BUILD_SET reads (R53), and runs of
requests, each answered as alone (R47, R193). -/

namespace Sys2Proof.Machine

/-! ### Byte order -/

/-- R63: the high byte read back, bit by bit. -/
theorem bytePair_getLsbD_high (h l : Byte) {i : Nat} (hi : i < 8) :
    (bytePair h l).getLsbD (8 + i) = h.getLsbD i := by
  have hread : (hiByte (bytePair h l)).getLsbD i = h.getLsbD i := by rw [hiByte_bytePair]
  simpa [hiByte, hi] using hread

/-- R63: the low byte read back, bit by bit. -/
theorem bytePair_getLsbD_low (h l : Byte) {i : Nat} (hi : i < 8) :
    (bytePair h l).getLsbD i = l.getLsbD i := by
  have hread : (loByte (bytePair h l)).getLsbD i = l.getLsbD i := by rw [loByte_bytePair]
  simpa [loByte, hi] using hread

/-- Settles O35: the bits of a pair, and the pair of a checksum's own two bytes. -/
theorem storedChecksumIsBigEndian : Obligations.StoredChecksumIsBigEndian :=
  ⟨fun h l _ hi => ⟨bytePair_getLsbD_high h l hi, bytePair_getLsbD_low h l hi⟩, bytePair_hiByte_loByte⟩

/-! ### The bytes of DATA that BUILD_SET reads -/

/-- Settles O24: the other DATA holds the first n bytes as well, and the frame is built from those alone. -/
theorem buildSetReadsOnlyFirstBytes : Obligations.BuildSetReadsOnlyFirstBytes := by
  intro item data other length s hdata htake
  have hother : min length 13 ≤ other.length := by
    have hlen : min (min length 13) data.length = min (min length 13) other.length := by
      simpa only [List.length_take] using congrArg List.length htake
    omega
  rw [exec_buildSet_of_le item s hother, exec_buildSet_of_le item s hdata, htake]

/-! ### Runs of requests -/

theorem exec_resetLine {i : Instr} {s t : State} (h : exec i s = .next t) : t.resetLine = s.resetLine := by
  obtain ⟨r, rfl⟩ | ⟨st, rfl⟩ := exec_eq_next h
  · exact endTxn_resetLine r s
  · rw [endTxn_resetLine, emitRecords_resetLine]

@[simp] theorem resetBlock_resetLine (s : State) : (resetBlock s).resetLine = false := by
  unfold resetBlock
  split <;> rfl

/-- R191: after a step no reset is asked for, since the step took place without one or was the reset itself. -/
theorem step_resetLine {s t : State} (h : step s = .next t) : t.resetLine = false := by
  obtain ⟨-, rfl⟩ | ⟨hs, -, rfl⟩ | ⟨hs, r, i, -, -, hexec⟩ := step_eq_next h
  · exact resetBlock_resetLine s
  · exact hs
  · exact (exec_resetLine hexec).trans hs

/-- A run's first request is answered as alone, and the rest runs from a state with the same parameters and no
reset asked for: the next state, or after a model fault the same state again (assumption log 9). -/
theorem transcript_cons {s : State} (hs : s.resetLine = false) (r : Request) :
    ∃ t, t.params = s.params ∧ t.resetLine = false ∧
      ∀ rs, transcript (r :: rs) s = answer s r :: transcript rs t := by
  cases hstep : step (s.present r) with
  | next t =>
    refine ⟨t, (stepKeepsParameters _ t hstep).trans (present_params r s), step_resetLine hstep, fun rs => ?_⟩
    simp only [transcript, answer, hstep]
  | fault f => exact ⟨s, rfl, hs, fun rs => by simp only [transcript, answer, hstep, Answer.of]⟩
  | refused x => exact ⟨s, rfl, hs, fun rs => by simp only [transcript, answer, hstep, Answer.of]⟩

/-- R47, R193: by induction on the requests, from every state: the states of the run agree on the parameters,
which is all that an answer depends on. -/
theorem transcript_eq_map_answer (rs : List Request) {s : State} (hs : s.resetLine = false) :
    transcript rs s = rs.map (answer s) := by
  induction rs generalizing s with
  | nil => rfl
  | cons r rs ih =>
    obtain ⟨t, hparams, ht, hrun⟩ := transcript_cons hs r
    have hsame : answer t = answer s :=
      funext fun q => answerDependsOnRequestAndParametersOnly t s q ht hs hparams
    rw [hrun, ih ht, hsame, List.map_cons]

/-- Settles O44: each answer is a function of its request alone, so reordering the requests reorders the pairs. -/
theorem runAnswersEachRequestAsAlone : Obligations.RunAnswersEachRequestAsAlone := by
  refine fun s hs => ⟨fun rs => transcript_eq_map_answer rs hs, fun rs os hperm => ?_⟩
  rw [transcript_eq_map_answer rs hs, transcript_eq_map_answer os hs, ← List.map_prod_left_eq_zip,
    ← List.map_prod_left_eq_zip]
  exact hperm.map _

end Sys2Proof.Machine

/-! PROOFS. The two encodings and the field view (R61, R64 to R69), the frames that the builders answer (R73, R74,
R113), and the code check, on every frame and row by row (R66, R67, R142). -/

namespace Sys2Proof

/-! ### The bytes of a frame put together from its fields -/

theorem Envelope.wf_of_length {e : Envelope} (h : e.payload.length = 13) : e.wf = true := by
  rw [Envelope.wf, h]
  rfl

@[simp] theorem Envelope.toFrame_getElem?_zero (e : Envelope) (c : Byte) : (e.toFrame c)[0]? = some e.stx := rfl

@[simp] theorem Envelope.toFrame_getElem?_one (e : Envelope) (c : Byte) : (e.toFrame c)[1]? = some c := rfl

@[simp] theorem Envelope.toFrame_getElem?_two (e : Envelope) (c : Byte) : (e.toFrame c)[2]? = some e.ctrl := rfl

/-- R60: the payload stands from offset 3 on. -/
theorem Envelope.toFrame_getElem?_payload {e : Envelope} (h : e.payload.length = 13) (c : Byte) {i : Nat}
    (hi : i < 13) : (e.toFrame c)[3 + i]? = e.payload[i]? := by
  rw [Envelope.toFrame, List.getElem?_append_left (by simp; omega), List.getElem?_append_right (by simp)]
  simp

/-- R60: the end marker and the stored checksum stand behind the sixteen bytes before them. -/
theorem Envelope.toFrame_getElem?_tail {e : Envelope} (h : e.payload.length = 13) (c : Byte) (k : Nat) :
    (e.toFrame c)[16 + k]? = [e.etx, e.crcHi, e.crcLo][k]? := by
  have hlen : ([e.stx, c, e.ctrl] ++ e.payload).length = 16 := by simp [h]
  rw [Envelope.toFrame, List.getElem?_append_right (by omega), hlen, Nat.add_sub_cancel_left]

/-- R92: the checksum covers the code, the control byte, the payload and the end marker. -/
theorem Envelope.toFrame_covered {e : Envelope} (h : e.payload.length = 13) (c : Byte) :
    ((e.toFrame c).drop 1).take 16 = [c, e.ctrl] ++ e.payload ++ [e.etx] := by
  have hlen : ([c, e.ctrl] ++ e.payload ++ [e.etx]).length = 16 := by simp [h]
  have hsplit : (e.toFrame c).drop 1 = ([c, e.ctrl] ++ e.payload ++ [e.etx]) ++ [e.crcHi, e.crcLo] := by
    simp [Envelope.toFrame]
  rw [hsplit, List.take_left' hlen]

/-! ### Decoding -/

/-- R67: a code that no row names selects RSP_UNNAMED. -/
theorem codeInstr_of_unnamed {c : Byte} (hc : c ∉ Config.namedCodes) (e : Envelope) :
    codeInstr c e = .rspUnnamed c e := by
  simp only [Config.namedCodes, List.mem_cons, List.not_mem_nil, or_false, not_or] at hc
  simp [codeInstr, hc]

theorem decode_wire_toFrame {e : Envelope} (h : e.payload.length = 13) (c : Byte) :
    decode (.wire (e.toFrame c)) = .ok (codeInstr c e) :=
  decodeFrame_toFrame (Envelope.wf_of_length h) c

/-- Settles O1: each of the four codes against the tests of decodeSelect. -/
theorem opCodeSelectsOperation : Obligations.OpCodeSelectsOperation :=
  fun _ => ⟨rfl, rfl, rfl, rfl⟩

/-- Settles O2: a frame decodes to its code's row, which codeInstr computes for each named code. -/
theorem codeByteSelectsRow : Obligations.CodeByteSelectsRow := by
  intro e h
  have row := decode_wire_toFrame h
  exact ⟨row 0x21#8, row 0x31#8, row 0xA0#8, row 0xA2#8, row 0xA3#8, row 0xA4#8, row 0xA5#8, row 0xA9#8,
    fun c hc => (row c).trans (congrArg Except.ok (codeInstr_of_unnamed hc e))⟩

/-- Settles O3: the six words are closed requests, and decoding computes. -/
theorem tableWordsDecode : Obligations.TableWordsDecode :=
  ⟨rfl, rfl, rfl, rfl, rfl, rfl⟩

/-- Settles O6: every 19-byte sequence is put together from fields, and its view gives these back. -/
theorem fieldViewShowsEveryByte : Obligations.FieldViewShowsEveryByte := by
  intro f hf
  obtain ⟨c, e, hwf, hlen, rfl, -⟩ := decodeFrame_of_length hf
  have htail := Envelope.toFrame_getElem?_tail hlen c
  exact ⟨_, fieldView_toFrame hwf c, e.toFrame_getElem?_zero c, e.toFrame_getElem?_one c, e.toFrame_getElem?_two c,
    hlen, fun i hi => (Envelope.toFrame_getElem?_payload hlen c hi).symm, htail 0, htail 1, htail 2⟩

end Sys2Proof

namespace Sys2Proof.Machine

/-! ### The builders' frames -/

theorem endTxn_eq_answered (r : Response) (s : State) : endTxn r s = s.answered r := rfl

/-- R63, R92: a completed frame as its start marker, the bytes its checksum covers, and the checksum. -/
theorem completeFrame_cons (p : Params) (b : Byte) (w : List Byte) :
    completeFrame p (b :: w) = [b] ++ (w ++ [p.etx]) ++
      [hiByte (crc16 p (w ++ [p.etx])), loByte (crc16 p (w ++ [p.etx]))] := by
  simp [completeFrame]

/-- Settles O21: the frame that is completed, read from its start marker on, and the underrun. -/
theorem buildSetAnswersSetFrame : Obligations.BuildSetAnswersSetFrame := by
  intro item data length s n covered c
  refine ⟨fun hle => ?_, fun hlt => exec_buildSet_of_lt item s hlt⟩
  rw [exec_buildSet_of_le item s hle, endTxn_eq_answered]
  exact congrArg (Host.Outcome.next <| s.answered <| .frame ·) (completeFrame_cons s.params s.params.stx _)

/-- Settles O25: as for BUILD_SET, for every operand. -/
theorem buildGetAnswersGetFrame : Obligations.BuildGetAnswersGetFrame := by
  intro item sub subsub s covered c
  rw [exec_buildGet, endTxn_eq_answered]
  exact congrArg (Host.Outcome.next <| s.answered <| .frame ·) (completeFrame_cons s.params s.params.stx _)

/-- A transaction has one response. -/
theorem Responds.eq_of_exec {i : Instr} {s : State} {r r' : Response} (h : Responds i s r)
    (hexec : exec i s = .next (endTxn r' s)) : r = r' := by
  obtain ⟨t, ht, hr⟩ := h
  obtain rfl := Host.Outcome.next.inj (ht.symm.trans hexec)
  exact (Option.some.inj hr).symm

/-- R113: BUILD_SET gives a response only where DATA holds enough bytes. -/
theorem Responds.le_of_buildSet {item : Byte} {data : List Byte} {length : Nat} {s : State} {r : Response}
    (h : Responds (.buildSet item data length) s r) : min length 13 ≤ data.length := by
  by_contra hlt
  obtain ⟨t, ht, -⟩ := h
  rw [exec_buildSet_of_lt item s (not_le.1 hlt)] at ht
  cases ht

/-- R60: a completed frame as a wire frame of its code, its item code the control byte. -/
theorem completeFrame_eq_toFrame (p : Params) (stx code item : Byte) (payload : List Byte) :
    ∃ e : Envelope, e.ctrl = item ∧ e.payload = payload ∧
      completeFrame p ([stx, code, item] ++ payload) = e.toFrame code :=
  ⟨⟨stx, item, payload, p.etx, _, _⟩, rfl, rfl, rfl⟩

/-- R64: a completed frame with a payload of 13 bytes decodes to the row of its code byte. -/
theorem decode_completeFrame (p : Params) (stx code item : Byte) {payload : List Byte} (h : payload.length = 13) :
    ∃ e, decode (.wire (completeFrame p ([stx, code, item] ++ payload))) = .ok (codeInstr code e) ∧
      e.ctrl = item := by
  obtain ⟨e, hctrl, rfl, hframe⟩ := completeFrame_eq_toFrame p stx code item payload
  exact ⟨e, hframe ▸ decode_wire_toFrame h code, hctrl⟩

/-- Settles O28: the response is the completed frame, whose second byte the builder wrote. -/
theorem builtFrameIsOfItsCodeRow : Obligations.BuiltFrameIsOfItsCodeRow := by
  constructor
  · intro item data length s f h
    have hle := h.le_of_buildSet
    obtain rfl := Response.frame.inj (h.eq_of_exec (exec_buildSet_of_le item s hle))
    rw [List.append_assoc]
    exact ⟨rfl, decode_completeFrame s.params s.params.stx 0x21#8 item (by simp; omega)⟩
  · intro item sub subsub s f h
    obtain rfl := Response.frame.inj (h.eq_of_exec (exec_buildGet item sub subsub s))
    rw [List.append_assoc]
    exact ⟨rfl, decode_completeFrame s.params s.params.stx 0x31#8 item rfl⟩

/-! ### The code check -/

/-- R66, R142: the code check in terms of the three accepted codes. -/
theorem codeBad_eq_true_iff (c : Byte) : codeBad c = true ↔ c ≠ 0xA0#8 ∧ c ≠ 0xA3#8 ∧ c ≠ 0xA9#8 := by
  simp [codeBad, Config.accepted, Config.rspOk, Config.rspNe2, Config.rspA9]

/-- R67: every accepted code is a named one, so an unnamed code fails the check. -/
theorem codeBad_of_unnamed {c : Byte} (hc : c ∉ Config.namedCodes) : codeBad c = true := by
  have hsub : Config.accepted ⊆ Config.namedCodes := by decide
  simpa [codeBad] using fun h => hc (hsub h)

/-- R140 to R145: VALIDATE on a frame put together from its fields: the status bits are the four conditions on
these. -/
theorem validateFrame_toFrame {e : Envelope} (h : e.payload.length = 13) (c : Byte) (s : State) :
    ∃ st : Status, validateFrame (e.toFrame c) s = .next (endTxn (.status st) (emitRecords st s)) ∧
      st.getLsbD 0 = startBad s.params e.stx ∧ st.getLsbD 1 = codeBad c ∧
      st.getLsbD 2 = endBad s.params e.etx ∧
      st.getLsbD 3 = checksumBad s.params e.crcHi e.crcLo ([c, e.ctrl] ++ e.payload ++ [e.etx]) := by
  have htail := Envelope.toFrame_getElem?_tail h c
  rw [← Envelope.toFrame_covered h]
  exact validateFrame_next (Envelope.toFrame_length (Envelope.wf_of_length h) c) (e.toFrame_getElem?_zero c)
    (e.toFrame_getElem?_one c) (htail 0) (htail 1) (htail 2)

/-- Settles O31: the frame's second byte is the one that check 2 reads. -/
theorem codeCheckAcceptsExactlyThreeCodes : Obligations.CodeCheckAcceptsExactlyThreeCodes := by
  intro f c s hf hcode
  obtain ⟨c', e, -, hlen, rfl, -⟩ := decodeFrame_of_length hf
  obtain rfl : c' = c := Option.some.inj hcode
  obtain ⟨st, hnext, -, hbit, -, -⟩ := validateFrame_toFrame hlen c' s
  exact ⟨st, ⟨_, hnext, rfl⟩, hbit ▸ codeBad_eq_true_iff c'⟩

/-! ### The code-byte rows -/

/-- R149: the records of a status are one for each set bit, in whichever order they are arranged. -/
theorem recordsOf_arrange (k : Nat) (st : Status) : RecordsOf st (arrange k (reasonsOf st)) := by
  have hperm := arrange_perm k (reasonsOf st)
  have hmem (r : Reason) : r ∈ arrange k (reasonsOf st) ↔ st.getLsbD r.bit = true :=
    hperm.mem_iff.trans mem_reasonsOf
  exact ⟨hperm.nodup_iff.2 (reasonsOf_nodup st), hmem .badStart, hmem .badCode, hmem .badEnd, hmem .badChecksum⟩

theorem endTxn_emitRecords_eq_validated (st : Status) (s : State) : endTxn (.status st) (emitRecords st s) =
    s.validated st (arrange (Config.recordOrder s.draws) (reasonsOf st)) := rfl

/-- The row of a code completes in every state, and reports BAD_CODE as the code check says. -/
theorem rowAnswers_codeInstr {e : Envelope} (h : e.payload.length = 13) (c : Byte) :
    RowAnswers (codeInstr c e) c e (codeBad c) := by
  intro s
  obtain ⟨st, hnext, hstart, hcode, hend, hcrc⟩ := validateFrame_toFrame h c s
  rw [exec_codeInstr, hnext, endTxn_emitRecords_eq_validated]
  exact ⟨st, _, rfl, recordsOf_arrange _ st, hstart ▸ bne_iff_ne, hcode, hend ▸ bne_iff_ne, hcrc ▸ bne_iff_ne⟩

/-- Settles O38: the row of each accepted code. -/
theorem acceptedCodeRowsPassCodeCheck : Obligations.AcceptedCodeRowsPassCodeCheck := by
  intro e h
  have row := rowAnswers_codeInstr h
  exact ⟨row 0xA0#8, row 0xA3#8, row 0xA9#8⟩

/-- Settles O39: the row of each named code that is not accepted, and of every unnamed one. -/
theorem rejectedCodeRowsReportBadCode : Obligations.RejectedCodeRowsReportBadCode := by
  intro e h
  have row := rowAnswers_codeInstr h
  refine ⟨row 0x21#8, row 0x31#8, row 0xA2#8, row 0xA4#8, row 0xA5#8, fun c hc => ?_⟩
  simpa only [codeInstr_of_unnamed hc, codeBad_of_unnamed hc] using row c

end Sys2Proof.Machine

/-! PROOFS. CRC16: bit reflection (R89), the checksum as an answer (R90, R94), its linearity (R95), the single-byte
change it detects (R96), and what VALIDATE reports of a frame whose stored checksum is stale (R97). -/

namespace Sys2Proof.Machine

/-! ### Reflection -/

@[simp] theorem reflect_reflect {n : Nat} (v : BitVec n) : reflect (reflect v) = v := by
  refine BitVec.eq_of_getLsbD_eq fun i hi => ?_
  simp [hi, show n - 1 - i < n by omega, show n - 1 - (n - 1 - i) = i by omega]

theorem reflect_injective {n : Nat} : Function.Injective (reflect (n := n)) :=
  Function.LeftInverse.injective reflect_reflect

theorem reflect_xor {n : Nat} (v w : BitVec n) : reflect (v ^^^ w) = reflect v ^^^ reflect w := by
  refine BitVec.eq_of_getLsbD_eq fun i hi => ?_
  simp [hi]

theorem reflect_getLsbD_of_lt {n : Nat} (v : BitVec n) {i : Nat} (hi : i < n) :
    (reflect v).getLsbD i = v.getLsbD (n - 1 - i) := by
  simp [hi]

/-- Settles O16: both widths are cases of the laws for every width, and the examples compute. -/
theorem reflectionReversesBits : Obligations.ReflectionReversesBits :=
  ⟨fun v => ⟨fun _ hi => reflect_getLsbD_of_lt v hi, reflect_reflect v⟩,
    fun v => ⟨fun _ hi => reflect_getLsbD_of_lt v hi, reflect_reflect v⟩, by decide, by decide, by decide⟩

/-! ### The answer of CRC16 -/

/-- Settles O17: CRC16 reads back the bytes it was given, and ends with their checksum. -/
theorem crc16AnswersChecksum : Obligations.Crc16AnswersChecksum :=
  fun bytes s => (exec_crc16 bytes s).trans (congrArg _ (endTxn_eq_answered _ s))

/-- R94: no byte is folded in, so only the final reflection and XOR remain. -/
theorem crc16_nil (p : Params) :
    crc16 p [] = (if p.crcRefout then reflect p.crcInit else p.crcInit) ^^^ p.crcXorout := rfl

/-- Settles O18: the answer to every byte sequence, at the empty one. -/
theorem crc16OfEmptySequence : Obligations.Crc16OfEmptySequence :=
  fun s => crc16_nil s.params ▸ crc16AnswersChecksum [] s

/-! ### Linearity over GF(2) -/

theorem xor_xor_xor_cancel_right {n : Nat} (x y c : BitVec n) : x ^^^ c ^^^ (y ^^^ c) = x ^^^ y := by
  rw [xor_comm y, ← xor_assoc, xor_cancel_right]

/-- R95: the polynomial comes in as often as a bit is shifted out, and cancels where both registers shift one out. -/
theorem crcBit_xor (p : Params) (x y : Bits16) : crcBit p (x ^^^ y) = crcBit p x ^^^ crcBit p y := by
  unfold crcBit
  rw [BitVec.getLsbD_xor, BitVec.shiftLeft_xor_distrib]
  match x.getLsbD 15, y.getLsbD 15 with
  | false, false => rfl
  | false, true => exact xor_assoc ..
  | true, false =>
    change x <<< 1 ^^^ y <<< 1 ^^^ p.crcPoly = (x <<< 1 ^^^ p.crcPoly) ^^^ y <<< 1
    ac_rfl
  | true, true => exact (xor_xor_xor_cancel_right ..).symm

theorem crcBits_xor (p : Params) (k : Nat) (x y : Bits16) :
    crcBits p k (x ^^^ y) = crcBits p k x ^^^ crcBits p k y := by
  induction k generalizing x y with
  | zero => rfl
  | succ k ih => rw [crcBits, crcBits, crcBits, crcBit_xor, ih]

theorem crcInput_xor (p : Params) (b c : Byte) : crcInput p (b ^^^ c) = crcInput p b ^^^ crcInput p c := by
  unfold crcInput
  split
  · exact reflect_xor b c
  · rfl

theorem crcByte_xor (p : Params) (x y : Bits16) (b c : Byte) :
    crcByte p (x ^^^ y) (b ^^^ c) = crcByte p x b ^^^ crcByte p y c := by
  rw [crcByte, crcByte, crcByte, ← crcBits_xor, crcInput_xor, BitVec.setWidth_xor, BitVec.shiftLeft_xor_distrib]
  ac_rfl

/-- R95: the register is additive in its initial value and the message together. -/
theorem crcRegister_xor (p : Params) {as bs : List Byte} (h : as.length = bs.length) (x y : Bits16) :
    crcRegister p (x ^^^ y) (List.zipWith (· ^^^ ·) as bs) = crcRegister p x as ^^^ crcRegister p y bs := by
  induction as generalizing bs x y with
  | nil =>
    obtain rfl := List.length_eq_zero_iff.1 h.symm
    rfl
  | cons a as ih =>
    obtain _ | ⟨b, bs⟩ := bs
    · cases h
    · rw [List.zipWith_cons_cons, crcRegister_cons, crcRegister_cons, crcRegister_cons, crcByte_xor,
        ih (Nat.succ.inj h)]

/-- R95: the final XOR cancels, and reflection is additive. -/
theorem crcFinal_xor (p : Params) (x y : Bits16) :
    crcFinal p x ^^^ crcFinal p y = crcFinal (zeroedCrc p) (x ^^^ y) := by
  unfold crcFinal
  rw [xor_xor_xor_cancel_right]
  cases h : p.crcRefout with
  | false => simp [zeroedCrc, h]
  | true => simp [zeroedCrc, h, reflect_xor]

/-- The register's steps read only the polynomial and P_CRC_REFIN. -/
theorem crcRegister_zeroedCrc (p : Params) : crcRegister (zeroedCrc p) = crcRegister p := rfl

/-- Settles O19: the two equal initial values cancel in the register, the two final XORs behind it. -/
theorem crcIsLinear : Obligations.CrcIsLinear := by
  intro p a b h
  calc crc16 p a ^^^ crc16 p b
    _ = crcFinal (zeroedCrc p) (crcRegister p p.crcInit a ^^^ crcRegister p p.crcInit b) := crcFinal_xor p _ _
    _ = crcFinal (zeroedCrc p) (crcRegister p 0#16 (List.zipWith (· ^^^ ·) a b)) := by
      rw [← crcRegister_xor p h, BitVec.xor_self]
    _ = crc16 (zeroedCrc p) (List.zipWith (· ^^^ ·) a b) := by rw [← crcRegister_zeroedCrc]; rfl

/-! ### Detection of a single-byte change -/

/-- The register's upper fifteen bits are shifted out of their places, the topmost out of the register. -/
theorem eq_of_shiftLeft_one_eq {n : Nat} {x y : BitVec (n + 1)} (hmsb : x.getLsbD n = y.getLsbD n)
    (h : x <<< 1 = y <<< 1) : x = y := by
  refine BitVec.eq_of_getLsbD_eq fun i hi => ?_
  rcases Nat.lt_succ_iff_lt_or_eq.1 hi with hlt | rfl
  · have hbit := congrArg (fun z : BitVec (n + 1) => z.getLsbD (i + 1)) h
    simpa [hlt, BitVec.getLsbD_eq_getElem hi] using hbit
  · exact hmsb

/-- R96: with an odd polynomial the bit that an inner step shifts out is read back as the new lowest bit. -/
theorem crcBit_injective {p : Params} (hp : p.crcPoly.getLsbD 0 = true) : Function.Injective (crcBit p) := by
  intro x y h
  have hmsb : x.getLsbD 15 = y.getLsbD 15 := by
    rw [← crcBit_getLsbD_zero hp, h, crcBit_getLsbD_zero hp]
  refine eq_of_shiftLeft_one_eq hmsb ?_
  unfold crcBit at h
  rw [hmsb] at h
  split at h
  · exact (BitVec.xor_left_inj _).1 h
  · exact h

theorem crcBits_injective {p : Params} (hp : p.crcPoly.getLsbD 0 = true) (k : Nat) :
    Function.Injective (crcBits p k) := by
  induction k with
  | zero => exact Function.injective_id
  | succ k ih => exact ih.comp (crcBit_injective hp)

theorem crcInput_injective (p : Params) : Function.Injective (crcInput p) := by
  intro b c h
  unfold crcInput at h
  split at h
  · exact reflect_injective h
  · exact h

theorem crcByte_injective_register {p : Params} (hp : p.crcPoly.getLsbD 0 = true) (b : Byte) :
    Function.Injective (crcByte p · b) :=
  fun _ _ h => (BitVec.xor_left_inj _).1 (crcBits_injective hp 8 h)

/-- The input byte is the register's high byte, from which it can be read back. -/
theorem hiByte_setWidth_shiftLeft (b : Byte) : hiByte (b.setWidth 16 <<< 8) = b := by
  simpa [bytePair] using hiByte_bytePair b 0#8

theorem crcByte_injective_byte {p : Params} (hp : p.crcPoly.getLsbD 0 = true) (reg : Bits16) :
    Function.Injective (crcByte p reg) := by
  intro b c h
  have hinput := congrArg hiByte ((BitVec.xor_right_inj _).1 (crcBits_injective hp 8 h))
  rw [hiByte_setWidth_shiftLeft, hiByte_setWidth_shiftLeft] at hinput
  exact crcInput_injective p hinput

theorem crcRegister_injective {p : Params} (hp : p.crcPoly.getLsbD 0 = true) (bytes : List Byte) :
    Function.Injective (crcRegister p · bytes) := by
  induction bytes with
  | nil => exact Function.injective_id
  | cons b bs ih => exact ih.comp (crcByte_injective_register hp b)

theorem crcFinal_injective (p : Params) : Function.Injective (crcFinal p) := by
  intro x y h
  have h := (BitVec.xor_left_inj _).1 h
  split at h
  · exact reflect_injective h
  · exact h

/-- Settles O20: no step of the CRC loses a difference: the changed byte makes the registers differ, the bytes
behind it and the final reflection keep them different. -/
theorem oddPolynomialDetectsSingleByteChange : Obligations.OddPolynomialDetectsSingleByteChange := by
  intro p hp before after b c hbc h
  have hreg := crcFinal_injective p h
  rw [crcRegister_append, crcRegister_append, crcRegister_cons, crcRegister_cons] at hreg
  exact hbc (crcByte_injective_byte hp _ (crcRegister_injective hp after hreg))

/-! ### A stale checksum -/

/-- R11: P_SINGLE_BYTE_DETECT for a byte replaced by its index. -/
theorem SingleByteDetect.crc16_set_ne {p : Params} (hp : SingleByteDetect p) {bytes : List Byte} {i : Nat} {b : Byte}
    (hi : i < bytes.length) (hb : bytes[i]? ≠ some b) : crc16 p (bytes.set i b) ≠ crc16 p bytes := by
  have hne : b ≠ bytes[i] := fun h => hb (h ▸ List.getElem?_eq_getElem hi)
  have hsplit : bytes = bytes.take i ++ bytes[i] :: bytes.drop (i + 1) := by simp
  rw [List.set_eq_take_append_cons_drop, if_pos hi]
  conv_rhs => rw [hsplit]
  exact hp _ _ b _ hne

/-- R63: a high and a low byte are read back from their 16-bit value. -/
theorem bytePair_inj {h l h' l' : Byte} : bytePair h l = bytePair h' l' ↔ h = h' ∧ l = l' := by
  refine ⟨fun heq => ⟨?_, ?_⟩, fun ⟨hh, hl⟩ => hh ▸ hl ▸ rfl⟩
  · simpa using congrArg hiByte heq
  · simpa using congrArg loByte heq

/-- R92: the covered bytes of a changed frame. -/
theorem frameCrc_set (p : Params) (f : List Byte) {i : Nat} (hi : 1 ≤ i) (b : Byte) :
    frameCrc p (f.set i b) = crc16 p (((f.drop 1).take 16).set (i - 1) b) := by
  have hdrop : (f.set i b).drop 1 = (f.drop 1).set (i - 1) b := by
    rw [List.drop_set, if_neg (by omega)]
  rw [← List.take_set, ← hdrop]
  rfl

theorem frameCrc_set_of_covered_ne {p : Params} (hp : SingleByteDetect p) {f : List Byte} (hf : f.length = 19) {i : Nat}
    {b : Byte} (h1 : 1 ≤ i) (h16 : i ≤ 16) (hb : f[i]? ≠ some b) : frameCrc p (f.set i b) ≠ frameCrc p f := by
  have hbyte : ((f.drop 1).take 16)[i - 1]? = f[i]? := by
    rw [List.getElem?_take_of_lt (by omega), List.getElem?_drop, Nat.add_sub_cancel' h1]
  rw [frameCrc_set p f h1]
  exact hp.crc16_set_ne (by simp [hf]; omega) (hbyte ▸ hb)

/-- R92: the checksum does not cover the bytes behind the end marker. -/
theorem frameCrc_set_of_stored (p : Params) (f : List Byte) {i : Nat} (hi : 17 ≤ i) (b : Byte) :
    frameCrc p (f.set i b) = frameCrc p f := by
  rw [frameCrc_set p f (by omega), List.set_eq_of_length_le (by simp; omega)]
  rfl

/-- R144: VALIDATE reports a stored checksum that is not the fresh one. -/
theorem validate_reports_badChecksum {f : List Byte} {hi lo : Byte} (s : State) (hf : f.length = 19)
    (h17 : f[17]? = some hi) (h18 : f[18]? = some lo) (hstale : bytePair hi lo ≠ frameCrc s.params f) :
    ∃ st, Responds (.validate f) s (.status st) ∧ st.getLsbD 3 = true := by
  have byteAt (k : Nat) (hk : k < 19) : f[k]? = some (f[k]'(hf ▸ hk)) := List.getElem?_eq_getElem _
  obtain ⟨st, hnext, -, -, -, hbit⟩ := validateFrame_next (s := s) hf (byteAt 0 (by decide)) (byteAt 1 (by decide))
    (byteAt 16 (by decide)) h17 h18
  exact ⟨st, ⟨_, hnext, rfl⟩, hbit.trans (bne_iff_ne.2 hstale)⟩

/-- Settles O36: a changed covered byte changes the fresh checksum, a changed stored byte the stored one. -/
theorem staleChecksumIsReported : Obligations.StaleChecksumIsReported := by
  intro f s hi lo i b hf h17 h18 hright hb
  have hlen : (f.set i b).length = 19 := (List.length_set ..).trans hf
  refine ⟨fun h1 h16 hdetect => ?_, ?_⟩
  · refine validate_reports_badChecksum s hlen (hi := hi) (lo := lo) ?_ ?_ ?_
    · rwa [List.getElem?_set_ne (by omega)]
    · rwa [List.getElem?_set_ne (by omega)]
    · rw [hright]
      exact (frameCrc_set_of_covered_ne hdetect hf h1 h16 hb).symm
  · rintro (rfl | rfl)
    · refine validate_reports_badChecksum s hlen (hi := b) (lo := lo) ?_ ?_ fun h => hb ?_
      · exact List.getElem?_set_self (by omega)
      · rwa [List.getElem?_set_ne (by decide)]
      · rw [frameCrc_set_of_stored s.params f le_rfl, ← hright] at h
        rw [h17, (bytePair_inj.1 h).1]
    · refine validate_reports_badChecksum s hlen (hi := hi) (lo := b) ?_ ?_ fun h => hb ?_
      · rwa [List.getElem?_set_ne (by decide)]
      · exact List.getElem?_set_self (by omega)
      · rw [frameCrc_set_of_stored s.params f (by decide), ← hright] at h
        rw [h18, (bytePair_inj.1 h).2]

end Sys2Proof.Machine

/-! PROOFS. The payload of a built frame (R73, R111, R112), the agreement of the two builders (R115), and what VALIDATE
reports of a built frame (R116) and of one whose code was replaced (R117). -/

namespace Sys2Proof.Machine

/-! ### The payload -/

/-- R73, R111, R112: the payload of BUILD_SET. -/
def setPayload (data : List Byte) (length : Nat) : List Byte :=
  data.take (min length 13) ++ List.replicate (13 - min length 13) 0x00#8

theorem setPayload_length {data : List Byte} {length : Nat} (h : min length 13 ≤ data.length) :
    (setPayload data length).length = 13 := by
  simp [setPayload]
  omega

/-- R111: the payload of a long request is that of LENGTH = 13. -/
theorem setPayload_of_le (data : List Byte) {length : Nat} (h : 13 ≤ length) : setPayload data length = data.take 13 := by
  simp [setPayload, min_eq_right h]

/-- R112: zeros follow the n bytes taken from DATA. -/
theorem setPayload_getElem?_of_le {data : List Byte} {length i : Nat} (h : min length 13 ≤ data.length)
    (hn : min length 13 ≤ i) (hi : i < 13) : (setPayload data length)[i]? = some 0x00#8 := by
  have htaken : (data.take (min length 13)).length = min length 13 := List.length_take_of_le h
  rw [setPayload, List.getElem?_append_right (htaken.trans_le hn), htaken, List.getElem?_replicate_of_lt (by omega)]

theorem exec_buildSet_eq_answered (item : Byte) {data : List Byte} {length : Nat} (s : State)
    (h : min length 13 ≤ data.length) :
    exec (.buildSet item data length) s = .next (s.answered (.frame
      (completeFrame s.params ([s.params.stx, 0x21#8, item] ++ setPayload data length)))) := by
  rw [exec_buildSet_of_le item s h, List.append_assoc]
  rfl

/-- R115: BUILD_GET i, s, t has the payload of BUILD_SET i, [s, t], 2. -/
theorem exec_buildGet_eq_answered (item sub subsub : Byte) (s : State) :
    exec (.buildGet item sub subsub) s = .next (s.answered (.frame
      (completeFrame s.params ([s.params.stx, 0x31#8, item] ++ setPayload [sub, subsub] 2)))) := by
  rw [exec_buildGet, List.append_assoc]
  rfl

/-! ### The bytes of a completed frame -/

@[simp] theorem completeFrame_getElem?_zero (p : Params) (b : Byte) (w : List Byte) :
    (completeFrame p (b :: w))[0]? = some b := rfl

@[simp] theorem completeFrame_getElem?_one (p : Params) (b c : Byte) (w : List Byte) :
    (completeFrame p (b :: c :: w))[1]? = some c := rfl

theorem completeFrame_payload (p : Params) (stx code item : Byte) {payload : List Byte} (h : payload.length = 13) :
    ((completeFrame p ([stx, code, item] ++ payload)).drop 3).take 13 = payload := by
  simp [completeFrame, ← h]

/-- R115: behind its code byte and up to its end marker, a completed frame holds the control byte, the payload and the
end marker, whatever the code. -/
theorem completeFrame_getElem?_behind_code (p : Params) (stx code item : Byte) {payload : List Byte} {k : Nat}
    (hk : k < payload.length + 2) :
    (completeFrame p ([stx, code, item] ++ payload))[2 + k]? = (item :: (payload ++ [p.etx]))[k]? := by
  have hsplit : (completeFrame p ([stx, code, item] ++ payload)).drop 2 =
      item :: (payload ++ [p.etx]) ++ (completeFrame p ([stx, code, item] ++ payload)).drop (payload.length + 4) := by
    simp [completeFrame]
  rw [← List.getElem?_drop, hsplit, List.getElem?_append_left (by simp; omega)]

theorem completeFrame_getElem?_payload (p : Params) (stx code item : Byte) {payload : List Byte} {i : Nat}
    (hi : i < payload.length) : (completeFrame p ([stx, code, item] ++ payload))[3 + i]? = payload[i]? := by
  rw [show 3 + i = 2 + (i + 1) by omega, completeFrame_getElem?_behind_code p stx code item (by omega),
    List.getElem?_cons_succ, List.getElem?_append_left hi]

/-- Settles O22: both requests have the payload DATA[0..12]. -/
theorem buildSetTruncatesLongPayload : Obligations.BuildSetTruncatesLongPayload := by
  intro item data length s hlong hdata
  have hlong_exec := exec_buildSet_eq_answered item s ((min_le_right length 13).trans hdata)
  have h13_exec := exec_buildSet_eq_answered item s ((min_le_right 13 13).trans hdata)
  rw [setPayload_of_le data hlong.le] at hlong_exec
  rw [setPayload_of_le data le_rfl] at h13_exec
  exact ⟨_, hlong_exec, h13_exec, completeFrame_payload _ _ _ _ (List.length_take_of_le hdata)⟩

/-- Settles O23: a payload byte from n on is one of the zeros. -/
theorem buildSetZeroFillsPayload : Obligations.BuildSetZeroFillsPayload := by
  intro item data length s h
  refine ⟨_, exec_buildSet_eq_answered item s h, fun i hn hi => ?_⟩
  have hi13 : i < 13 := Nat.lt_succ_of_le hi
  rw [completeFrame_getElem?_payload _ _ _ _ ((setPayload_length h).symm ▸ hi13), setPayload_getElem?_of_le h hn hi13]

/-- Settles O26: both frames are completed from the same payload, behind different codes. -/
theorem buildGetAgreesWithBuildSet : Obligations.BuildGetAgreesWithBuildSet := by
  intro item sub subsub s
  have hpayload : (setPayload [sub, subsub] 2).length = 13 := setPayload_length (min_le_left 2 13)
  refine ⟨_, _, exec_buildGet_eq_answered item sub subsub s, exec_buildSet_eq_answered item s (min_le_left 2 13),
    ?_, fun i h2 h16 => ?_, completeFrame_getElem?_one .., completeFrame_getElem?_one ..⟩
  · exact (completeFrame_getElem?_zero ..).trans (completeFrame_getElem?_zero ..).symm
  · obtain ⟨k, rfl⟩ := Nat.exists_eq_add_of_le h2
    rw [completeFrame_getElem?_behind_code _ _ _ _ (by omega), completeFrame_getElem?_behind_code _ _ _ _ (by omega)]

/-! ### Validation of a frame with the right markers -/

/-- R140 to R144: with both markers right, VALIDATE answers the status whose other two bits are the conditions on the
code and on the stored checksum. -/
theorem responds_validate_of_markers {f : List Byte} {s : State} {c hi lo : Byte} {st : Status} (hf : f.length = 19)
    (hstx : f[0]? = some s.params.stx) (hcode : f[1]? = some c) (hetx : f[16]? = some s.params.etx)
    (hhi : f[17]? = some hi) (hlo : f[18]? = some lo) (h0 : st.getLsbD 0 = false) (h1 : st.getLsbD 1 = codeBad c)
    (h2 : st.getLsbD 2 = false) (h3 : st.getLsbD 3 = (bytePair hi lo != frameCrc s.params f)) :
    Responds (.validate f) s (.status st) := by
  obtain ⟨st', hnext, h0', h1', h2', h3'⟩ := validateFrame_next hf hstx hcode hetx hhi hlo
  obtain rfl : st' = st := status_eq_of_bits (h0'.trans (by rw [h0, startBad, bne_self_eq_false])) (h1'.trans h1.symm)
    (h2'.trans (by rw [h2, endBad, bne_self_eq_false])) (h3'.trans h3.symm)
  exact ⟨_, hnext, rfl⟩

/-! ### Built frames -/

/-- R116: a completed transaction meets the invariant, which allows only built frames as responses. -/
theorem builtFrame_of_exec {i : Instr} {s t : State} {f : List Byte} (h : exec i s = .next t)
    (hf : t.response = some (.frame f)) : BuiltFrame s.params f := by
  obtain ⟨-, -, -, hbuilt⟩ := inv_of_exec_eq_next h
  exact exec_params h ▸ hbuilt f hf

/-- R116, R68: an outgoing code is not accepted, and the rest of a built frame is right. -/
theorem BuiltFrame.responds_badCode {s : State} {f : List Byte} (h : BuiltFrame s.params f) :
    Responds (.validate f) s (.status 0b0010#4) := by
  obtain ⟨hlen, hstx, hcode, hetx, hhi, hlo⟩ := h
  have hstored : (0b0010#4).getLsbD 3 = (bytePair (hiByte (frameCrc s.params f)) (loByte (frameCrc s.params f)) !=
      frameCrc s.params f) := by
    rw [bytePair_hiByte_loByte, bne_self_eq_false]
    rfl
  rcases hcode with hset | hget
  · exact responds_validate_of_markers hlen hstx hset hetx hhi hlo rfl (by decide) rfl hstored
  · exact responds_validate_of_markers hlen hstx hget hetx hhi hlo rfl (by decide) rfl hstored

/-- Settles O27: the frame is a built one, and so VALIDATE reports its outgoing code alone. -/
theorem builtFrameValidatesToBadCodeAlone : Obligations.BuiltFrameValidatesToBadCodeAlone := by
  intro i s t f h hf
  have hbuilt := builtFrame_of_exec h hf
  exact ⟨hbuilt, hbuilt.responds_badCode⟩

/-! ### A built frame with its code replaced -/

theorem codeBad_of_mem_accepted {c : Byte} (h : c ∈ Config.accepted) : codeBad c = false := by
  simpa [codeBad] using h

/-- No outgoing code is accepted. -/
theorem BuiltFrame.code_ne_of_mem_accepted {p : Params} {f : List Byte} {c : Byte} (h : BuiltFrame p f)
    (hc : c ∈ Config.accepted) : f[1]? ≠ some c := by
  obtain ⟨-, -, hcode, -⟩ := h
  intro hfc
  rw [hfc, Option.some_inj, Option.some_inj] at hcode
  rcases hcode with rfl | rfl
  · exact absurd hc (by decide)
  · exact absurd hc (by decide)

/-- R92: the checksum does not cover itself. -/
theorem frameCrc_set_checksum (p : Params) (f : List Byte) (hi lo : Byte) :
    frameCrc p ((f.set 17 hi).set 18 lo) = frameCrc p f :=
  (frameCrc_set_of_stored p _ (by decide) lo).trans (frameCrc_set_of_stored p f le_rfl hi)

/-- R117: with an accepted code and its checksum recomputed, the frame passes. -/
theorem BuiltFrame.responds_ok_of_recomputed {s : State} {f : List Byte} {c : Byte} (h : BuiltFrame s.params f)
    (hc : c ∈ Config.accepted) :
    Responds (.validate (((f.set 1 c).set 17 (hiByte (frameCrc s.params (f.set 1 c)))).set 18
      (loByte (frameCrc s.params (f.set 1 c))))) s (.status 0b0000#4) := by
  obtain ⟨hlen, hstx, -, hetx, -, -⟩ := h
  refine responds_validate_of_markers (by simpa using hlen) (by simpa using hstx) (c := c) (by simp [hlen])
    (by simpa using hetx) (hi := hiByte (frameCrc s.params (f.set 1 c))) (by simp [hlen])
    (lo := loByte (frameCrc s.params (f.set 1 c))) (by simp [hlen]) rfl (codeBad_of_mem_accepted hc).symm rfl ?_
  rw [frameCrc_set_checksum, bytePair_hiByte_loByte, bne_self_eq_false]
  rfl

/-- R117, R96: with an accepted code and its old checksum, the frame fails by that checksum alone. -/
theorem BuiltFrame.responds_badChecksum_of_stale {s : State} {f : List Byte} {c : Byte} (h : BuiltFrame s.params f)
    (hc : c ∈ Config.accepted) (hdetect : SingleByteDetect s.params) :
    Responds (.validate (f.set 1 c)) s (.status 0b1000#4) := by
  have hcode := h.code_ne_of_mem_accepted hc
  obtain ⟨hlen, hstx, -, hetx, hhi, hlo⟩ := h
  have hstale := (frameCrc_set_of_covered_ne hdetect hlen le_rfl (by decide) hcode).symm
  refine responds_validate_of_markers (by simpa using hlen) (by simpa using hstx) (c := c) (by simp [hlen])
    (by simpa using hetx) (by simpa using hhi) (by simpa using hlo) rfl (codeBad_of_mem_accepted hc).symm rfl ?_
  rw [bytePair_hiByte_loByte]
  exact (bne_iff_ne.2 hstale).symm

/-- Settles O29: the frame that BUILD_SET answers is a built one; the checksum is recomputed or stale. -/
theorem roundTripOfBuiltFrame : Obligations.RoundTripOfBuiltFrame := by
  rintro item data length s f r ⟨t, hexec, hresp⟩ hr g c
  have hbuilt := builtFrame_of_exec hexec hresp
  exact ⟨hbuilt.responds_ok_of_recomputed hr, hbuilt.responds_badChecksum_of_stale hr⟩

end Sys2Proof.Machine

/-! PROOFS. VALIDATE (42_validate.md): raw buffers answered as VALIDATE answers them, the records it sends (R149), each
bit of its status by its own check (R141 to R146), every status reached, and single-byte changes of a passing frame
(R150). -/

namespace Sys2Proof.Machine

/-! ### Raw buffers -/

/-- Settles O40: a buffer that decodes has 19 bytes, so it is the frame of its code and its other fields. -/
theorem wireFrameIsAnsweredAsValidate : Obligations.WireFrameIsAnsweredAsValidate := by
  intro f i s hdec
  change decodeFrame f = .ok i at hdec
  by_cases hf : f.length = 19
  · obtain ⟨c, e, -, -, rfl, hrow⟩ := decodeFrame_of_length hf
    obtain rfl : codeInstr c e = i := Except.ok.inj (hrow.symm.trans hdec)
    exact exec_codeInstr c e s
  · rw [decodeFrame_of_length_ne hf] at hdec
    cases hdec

/-! ### The sink -/

@[simp] theorem resetBlock_sink (s : State) : (resetBlock s).sink = s.sink := by
  unfold resetBlock
  split <;> rfl

/-- R149: a transaction adds its records behind those of the sink: none, or those of its status. -/
theorem exec_sink {i : Instr} {s t : State} (h : exec i s = .next t) :
    ∃ recs, t.sink = s.sink.map (· ++ recs) := by
  obtain ⟨r, rfl⟩ | ⟨st, rfl⟩ := exec_eq_next h
  · exact ⟨[], by simp⟩
  · exact ⟨_, (endTxn_sink _ _).trans (emitRecords_sink st s)⟩

theorem step_sink {s t : State} (h : step s = .next t) : ∃ recs, t.sink = s.sink.map (· ++ recs) := by
  obtain ⟨-, rfl⟩ | ⟨-, -, rfl⟩ | ⟨-, r, i, -, -, hexec⟩ := step_eq_next h
  · exact ⟨[], by simp⟩
  · exact ⟨[], by simp⟩
  · exact exec_sink hexec

/-- Settles O14: the sink is mapped by appending, so none stays none. -/
theorem stepOnlyAddsRecords : Obligations.StepOnlyAddsRecords := by
  intro s t h
  obtain ⟨recs, hsink⟩ := step_sink h
  exact ⟨fun hnone => by rw [hsink, hnone, Option.map_none],
    fun log hlog => ⟨recs, by rw [hsink, hlog, Option.map_some]⟩⟩

/-! ### The order of the records -/

/-- A number arranges `r` at place `n` and the other reasons as the number `k` does. -/
theorem arrange_cons_of_le (k : Nat) {n : Nat} (r : Reason) {rs : List Reason} (hn : n ≤ rs.length) :
    arrange (n + (rs.length + 1) * k) (r :: rs) = (arrange k rs).insertIdx n r := by
  rw [arrange, Nat.add_mul_mod_self_left, Nat.mod_eq_of_lt (Nat.lt_succ_of_le hn),
    Nat.add_mul_div_left _ _ (Nat.succ_pos _), Nat.div_eq_of_lt (Nat.lt_succ_of_le hn), Nat.zero_add]

/-- Settles O33: by induction on the reasons: the first one stands at some place of the order, and the order without
it is one of the others. -/
theorem everyRecordOrderIsAllowed : Obligations.EveryRecordOrderIsAllowed := by
  intro rs
  induction rs with
  | nil => exact fun os h => ⟨0, h.eq_nil.symm⟩
  | cons r rs ih =>
    intro os h
    obtain ⟨n, hn, rfl⟩ := List.mem_iff_getElem.1 (h.mem_iff.2 List.mem_cons_self)
    obtain ⟨k, hk⟩ := ih (os.eraseIdx n) ((List.getElem_cons_eraseIdx_perm hn).trans h).cons_inv
    have hplace : n ≤ rs.length := Nat.le_of_lt_succ (hn.trans_eq h.length_eq)
    exact ⟨n + (rs.length + 1) * k, by
      rw [arrange_cons_of_le k _ hplace, hk, List.insertIdx_eraseIdx_getElem hn]⟩

/-! ### The bits of the status -/

/-- Settles O30: a 19-byte frame is answered as its code's row is, and the row reports each condition in its own bit. -/
theorem validateReportsEveryFailure : Obligations.ValidateReportsEveryFailure := by
  refine fun f s => ⟨fun hf => ?_, fun hf => validateFrame_fault hf⟩
  obtain ⟨c, e, -, hlen, rfl, hrow⟩ := decodeFrame_of_length hf
  have htail := Envelope.toFrame_getElem?_tail hlen c
  obtain ⟨st, recs, hnext, hrecs, hstart, hcode, hend, hcrc⟩ := rowAnswers_codeInstr hlen c s
  rw [wireFrameIsAnsweredAsValidate _ _ s hrow] at hnext
  refine ⟨st, recs, hnext, hrecs, ?_, ?_, ?_, fun hi lo h17 h18 => ?_⟩
  · rw [hstart, e.toFrame_getElem?_zero, Ne, Ne, Option.some_inj]
  · rw [hcode, codeBad_eq_true_iff, e.toFrame_getElem?_one]
    simp
  · rw [hend, htail 0]
    simp
  · obtain rfl : e.crcHi = hi := Option.some.inj ((htail 1).symm.trans h17)
    obtain rfl : e.crcLo = lo := Option.some.inj ((htail 2).symm.trans h18)
    rw [hcrc, Envelope.toFrame_covered hlen]

section
variable {f : List Byte} {b0 b1 b16 hi lo : Byte} (hf : f.length = 19) (h0 : f[0]? = some b0) (h1 : f[1]? = some b1)
  (h16 : f[16]? = some b16) (h17 : f[17]? = some hi) (h18 : f[18]? = some lo)
include hf h0 h1 h16 h17 h18

/-- R140 to R145: of a 19-byte frame VALIDATE answers the status whose bits are the four conditions, and no other. -/
theorem responds_validate_iff (s : State) (st : Status) :
    Responds (.validate f) s (.status st) ↔
      st.getLsbD 0 = startBad s.params b0 ∧ st.getLsbD 1 = codeBad b1 ∧ st.getLsbD 2 = endBad s.params b16 ∧
        st.getLsbD 3 = (bytePair hi lo != frameCrc s.params f) := by
  obtain ⟨st', hnext, hstart, hcode, hend, hcrc⟩ := validateFrame_next (s := s) hf h0 h1 h16 h17 h18
  constructor
  · rintro ⟨t, ht, hresp⟩
    obtain rfl := Host.Outcome.next.inj (hnext.symm.trans ht)
    obtain rfl : st' = st := Response.status.inj (Option.some.inj hresp)
    exact ⟨hstart, hcode, hend, hcrc⟩
  · rintro ⟨hstart', hcode', hend', hcrc'⟩
    obtain rfl : st' = st := status_eq_of_bits (hstart.trans hstart'.symm) (hcode.trans hcode'.symm)
      (hend.trans hend'.symm) (hcrc.trans hcrc'.symm)
    exact ⟨_, hnext, rfl⟩

/-- R146: the status has no bit set exactly when the frame passes. -/
theorem responds_ok_iff_passingFrame (s : State) :
    Responds (.validate f) s (.status 0b0000#4) ↔ PassingFrame s.params f := by
  rw [responds_validate_iff hf h0 h1 h16 h17 h18, PassingFrame, h0, h1, h16, h17, h18]
  simp [hf, startBad, codeBad, endBad]

end

/-- Settles O32: a 19-byte frame has the bytes that the four conditions speak of. -/
theorem statusOkMeansWellFormedFrame : Obligations.StatusOkMeansWellFormedFrame := by
  intro f s hf
  have byteAt (k : Nat) (hk : k < 19) : f[k]? = some (f[k]'(hf ▸ hk)) := List.getElem?_eq_getElem _
  exact responds_ok_iff_passingFrame hf (byteAt 0 (by decide)) (byteAt 1 (by decide)) (byteAt 16 (by decide))
    (byteAt 17 (by decide)) (byteAt 18 (by decide)) s

/-! ### Every status -/

/-- A word, made wrong where `bad` says so. -/
def spoil {n : Nat} (bad : Bool) (v : BitVec n) : BitVec n := if bad then ~~~v else v

theorem spoil_bne {n : Nat} (bad : Bool) (v : BitVec (n + 1)) : (spoil bad v != v) = bad := by
  cases bad with
  | false => exact bne_self_eq_false v
  | true => exact bne_iff_ne.2 fun h => by simpa [spoil] using congrArg (·.getLsbD 0) h

/-- R150: the fields of a frame with the code `c` that fails the checks of both markers and of the checksum exactly
where `st` says so. -/
def envelopeOfStatus (p : Params) (c : Byte) (st : Status) : Envelope :=
  let etx := spoil (st.getLsbD 2) p.etx
  let stored := spoil (st.getLsbD 3) (crc16 p ([c, 0x00#8] ++ List.replicate 13 0x00#8 ++ [etx]))
  { stx := spoil (st.getLsbD 0) p.stx, ctrl := 0x00#8, payload := List.replicate 13 0x00#8, etx := etx
    crcHi := hiByte stored, crcLo := loByte stored }

/-- Settles O34: the frame of these fields, with an accepted code or an outgoing one as bit 1 of the status asks. -/
theorem everyStatusIsReachable : Obligations.EveryStatusIsReachable := by
  intro s st
  obtain ⟨c, hc⟩ : ∃ c, st.getLsbD 1 = codeBad c := by
    cases st.getLsbD 1 with
    | false => exact ⟨Config.rspOk, by decide⟩
    | true => exact ⟨Config.codeSet, by decide⟩
  let e := envelopeOfStatus s.params c st
  have hlen : e.payload.length = 13 := rfl
  have hf := Envelope.toFrame_length (Envelope.wf_of_length hlen) c
  have htail := Envelope.toFrame_getElem?_tail hlen c
  refine ⟨e.toFrame c, hf, (responds_validate_iff hf (e.toFrame_getElem?_zero c) (e.toFrame_getElem?_one c)
    (htail 0) (htail 1) (htail 2) s st).2 ⟨(spoil_bne _ _).symm, hc, (spoil_bne _ _).symm, ?_⟩⟩
  have hcovered : frameCrc s.params (e.toFrame c) = crc16 s.params ([c, e.ctrl] ++ e.payload ++ [e.etx]) :=
    congrArg (crc16 s.params) (Envelope.toFrame_covered hlen c)
  rw [hcovered, show bytePair e.crcHi e.crcLo = _ from bytePair_hiByte_loByte _]
  exact (spoil_bne _ _).symm

/-! ### A passing frame with one byte changed -/

/-- The byte at `k` of a frame whose byte at `i` was changed. -/
theorem getElem?_set_eq_some {f : List Byte} {k : Nat} {x : Byte} (hk : f[k]? = some x) (i : Nat) (b : Byte) :
    (f.set i b)[k]? = some (if i = k then b else x) := by
  split
  next h =>
    subst h
    exact List.getElem?_set_self (List.getElem?_eq_some_iff.1 hk).1
  next h => rw [List.getElem?_set_ne h, hk]

/-- A byte that was right is wrong exactly when it was changed. -/
theorem changed_bne {f : List Byte} {i k : Nat} {b x : Byte} (hk : f[k]? = some x) (hb : f[i]? ≠ some b) :
    ((if i = k then b else x) != x) = decide (i = k) := by
  split
  next h =>
    subst h
    have hne : b ≠ x := fun h => hb (h ▸ hk)
    simp [hne]
  next h => simp [h]

/-- R92: the checksum does not cover the start marker. -/
theorem frameCrc_set_zero (p : Params) (f : List Byte) (b : Byte) : frameCrc p (f.set 0 b) = frameCrc p f := by
  cases f <;> rfl

/-- R150: of a passing frame with another byte at `i`, VALIDATE reports a changed marker, a changed code that is not
accepted, and every change but that of the start marker in the checksum, if single-byte changes of the covered bytes
are detected. -/
theorem PassingFrame.responds_set {f : List Byte} {s : State} {i : Nat} {b : Byte} {st : Status}
    (h : PassingFrame s.params f) (hb : f[i]? ≠ some b) (hi19 : i < 19)
    (hdetect : 1 ≤ i → i ≤ 16 → SingleByteDetect s.params) (h0 : st.getLsbD 0 = decide (i = 0))
    (h1 : st.getLsbD 1 = (decide (i = 1) && codeBad b)) (h2 : st.getLsbD 2 = decide (i = 16))
    (h3 : st.getLsbD 3 = decide (i ≠ 0)) : Responds (.validate (f.set i b)) s (.status st) := by
  obtain ⟨hf, hstx, ⟨c, hc, hcode⟩, hetx, hi, lo, hhi, hlo, hright⟩ := h
  have hlen : (f.set i b).length = 19 := (List.length_set ..).trans hf
  have hiff (st' : Status) := responds_validate_iff hlen (getElem?_set_eq_some hstx i b)
    (getElem?_set_eq_some hcode i b) (getElem?_set_eq_some hetx i b) (getElem?_set_eq_some hhi i b)
    (getElem?_set_eq_some hlo i b) s st'
  refine (hiff st).2 ⟨h0.trans (changed_bne hstx hb).symm, h1.trans ?_, h2.trans (changed_bne hetx hb).symm,
    h3.trans ?_⟩
  · split
    next h => simp [h]
    next h => simp [h, codeBad_of_mem_accepted hc]
  · rcases Nat.eq_zero_or_pos i with rfl | hpos
    · rw [frameCrc_set_zero]
      simp [hright]
    · obtain ⟨hcovered, hstored⟩ := staleChecksumIsReported f s hi lo i b hf hhi hlo hright hb
      obtain ⟨st', hst', hbit⟩ :
          ∃ st', Responds (.validate (f.set i b)) s (.status st') ∧ st'.getLsbD 3 = true := by
        rcases Nat.lt_or_ge 16 i with hlt | hle
        · exact hstored (by omega)
        · exact hcovered hpos hle (hdetect hpos hle)
      obtain ⟨-, -, -, hcrc⟩ := (hiff st').1 hst'
      rw [← hcrc, hbit]
      simp [hpos.ne']

/-- Settles O37: each clause fixes the changed offset, and with it the four bits. -/
theorem singleByteChangeOfPassingFrame : Obligations.SingleByteChangeOfPassingFrame := by
  intro f s i b h hb
  refine ⟨?_, ?_, fun hdetect => ⟨?_, ?_, fun h2 h15 => ?_, ?_⟩⟩
  · rintro rfl
    exact h.responds_set hb (by decide) (by omega) rfl rfl rfl rfl
  · rintro (rfl | rfl)
    · exact h.responds_set hb (by decide) (by omega) rfl rfl rfl rfl
    · exact h.responds_set hb (by decide) (by omega) rfl rfl rfl rfl
  · rintro rfl hmem
    exact h.responds_set hb (by decide) (fun _ _ => hdetect) rfl (codeBad_of_mem_accepted hmem).symm rfl rfl
  · rintro rfl hmem
    have hbad : codeBad b = true := by simpa [codeBad_eq_true_iff] using hmem
    exact h.responds_set hb (by decide) (fun _ _ => hdetect) rfl hbad.symm rfl rfl
  · have hne0 : i ≠ 0 := by omega
    have hne1 : i ≠ 1 := by omega
    have hne16 : i ≠ 16 := by omega
    exact h.responds_set hb (by omega) (fun _ _ => hdetect) (by simp [hne0]) (by simp [hne1]) (by simp [hne16])
      (by simp [hne0])
  · rintro rfl
    exact h.responds_set hb (by decide) (fun _ _ => hdetect) rfl rfl rfl rfl

end Sys2Proof.Machine

/-! PROOFS. Which requests raise a model fault (R172, R175), and which runs of requests succeed (R196). -/

namespace Sys2Proof.Machine

/-! ### A request's model fault -/

/-- R172, R195: an outcome that is the model fault `fault`, or the completion with a response where there is none. -/
def EndsAsTabled (o : Host.Outcome State Fault Refusal) (fault : Option Fault) : Prop :=
  (∀ f, fault = some f → o = .fault f) ∧ (fault = none → ∃ t x, o = .next t ∧ t.response = some x)

theorem EndsAsTabled.of_fault (f : Fault) : EndsAsTabled (.fault f) (some f) :=
  ⟨fun _ h => congrArg _ (Option.some.inj h), nofun⟩

theorem EndsAsTabled.of_endTxn (r : Response) (s : State) : EndsAsTabled (.next (endTxn r s)) none :=
  ⟨nofun, fun _ => ⟨_, r, rfl, rfl⟩⟩

/-- R172: BUILD_SET against its row of the table. -/
theorem exec_buildSet_endsAsTabled (item : Byte) (data : List Byte) (length : Nat) (s : State) :
    EndsAsTabled (exec (.buildSet item data length) s)
      (if data.length < min length 13 then some (.payloadUnderrun length data.length) else none) := by
  split
  next hlt => exact exec_buildSet_of_lt item s hlt ▸ .of_fault _
  next hle => exact exec_buildSet_of_le item s (not_lt.1 hle) ▸ .of_endTxn _ s

/-- R172: VALIDATE against its row of the table; 19 bytes are the frame of their code and their other fields. -/
theorem exec_validate_endsAsTabled (f : List Byte) (s : State) :
    EndsAsTabled (exec (.validate f) s) (if f.length ≠ 19 then some (.frameLength f.length) else none) := by
  rw [exec_validate]
  split
  next hf => exact validateFrame_fault hf ▸ .of_fault _
  next hf =>
    obtain ⟨c, e, -, hlen, rfl, -⟩ := decodeFrame_of_length (not_not.1 hf)
    obtain ⟨st, hnext, -⟩ := validateFrame_toFrame hlen c s
    exact hnext ▸ .of_endTxn _ _

/-- R70: the operation of an OP code, against the condition that the table gives for it. -/
theorem exec_decodeSelect_endsAsTabled (op : OpCode) (p : Ports) (s : State) :
    EndsAsTabled (exec (decodeSelect op p) s) (Request.select op p).modelFault := by
  have hop : op = 0b00#2 ∨ op = 0b01#2 ∨ op = 0b10#2 ∨ op = 0b11#2 := by
    revert op
    decide
  obtain rfl | rfl | rfl | rfl := hop
  · exact exec_crc16 p.bytes s ▸ .of_endTxn _ s
  · simpa [Request.modelFault, decodeSelect] using exec_buildSet_endsAsTabled p.item p.data p.length s
  · exact exec_buildGet p.item p.sub p.subsub s ▸ .of_endTxn _ s
  · simpa [Request.modelFault, decodeSelect] using exec_validate_endsAsTabled p.frame s

/-- A raw buffer of any length is stepped as VALIDATE of it: a frame as its code's row, another length as the fault
that VALIDATE raises (assumption log 2). -/
theorem step_of_wire {s : State} {f : List Byte} (hreset : s.resetLine = false) (hreq : s.request = some (.wire f)) :
    step s = exec (.validate f) s := by
  by_cases hf : f.length = 19
  · obtain ⟨c, e, -, -, -, hrow⟩ := decodeFrame_of_length hf
    exact (step_of_decode_ok hreset hreq hrow).trans (wireFrameIsAnsweredAsValidate f _ s hrow)
  · exact (step_of_decode_error hreset hreq (decodeFrame_of_length_ne hf)).trans (validateFrame_fault hf).symm

theorem step_present_endsAsTabled {s : State} (hs : s.resetLine = false) (r : Request) :
    EndsAsTabled (step (s.present r)) r.modelFault := by
  have hreset : (s.present r).resetLine = false := (present_resetLine r s).trans hs
  cases r with
  | select op p =>
    rw [step_of_decode_ok hreset (present_request _ s) rfl]
    exact exec_decodeSelect_endsAsTabled op p _
  | wire f =>
    rw [step_of_wire hreset (present_request _ s)]
    exact exec_validate_endsAsTabled f _

/-- Settles O41: each operation, and a raw buffer as VALIDATE of it, ends as its row of the table says. -/
theorem requestFaultsExactlyAsTabled : Obligations.RequestFaultsExactlyAsTabled :=
  fun _ r hs => step_present_endsAsTabled hs r

/-! ### Runs that succeed -/

/-- Settles O45: by induction on the requests, from every state: a fault ends the run, and a request that completes
leaves a state without a reset asked for, from which the rest runs. -/
theorem runSucceedsExactlyWhenFaultFree : Obligations.RunSucceedsExactlyWhenFaultFree := by
  intro rs
  induction rs with
  | nil => exact fun s _ => iff_of_true ⟨s, rfl⟩ nofun
  | cons r rs ih =>
    intro s hs
    obtain ⟨hfaults, hcompletes⟩ := step_present_endsAsTabled hs r
    rw [runRequests, List.forall_mem_cons]
    cases hfault : r.modelFault with
    | some f => simp [hfaults f hfault]
    | none =>
      obtain ⟨t, -, hstep, -⟩ := hcompletes hfault
      simpa [hstep] using ih t (step_resetLine hstep)

end Sys2Proof.Machine

/-! PROOFS. Reset (70_reset_and_hazards.md section 1): what a step that resets answers, with a request in progress and
without one (R191), and what the state after reset holds (R190). -/

namespace Sys2Proof.Machine

/-! ### A step that resets -/

/-- R191: a reset asked for comes first, whatever request is presented. -/
theorem step_of_resetLine {s : State} (hreset : s.resetLine = true) : step s = .next (resetBlock s) :=
  if_pos hreset

theorem resetBlock_of_no_request {s : State} (hreq : s.request = none) :
    resetBlock s = { s with resetLine := false } := by
  simp [resetBlock, hreq]

theorem resetBlock_of_request {s : State} {r : Request} (hreq : s.request = some r) :
    resetBlock s =
      { params := s.params, request := none, inp := [], out := [], status := none, response := none
        sink := s.sink, resetLine := false, draws := s.draws } := by
  simp [resetBlock, hreq]

/-- Settles O9: the step is the block's reset, which only a request in progress tells apart. -/
theorem resetEndsTransactionWithoutResponse : Obligations.ResetEndsTransactionWithoutResponse := by
  intro s hreset
  rw [step_of_resetLine hreset]
  refine ⟨fun hreq => ?_, fun r hreq => ?_⟩
  · rw [resetBlock_of_no_request hreq]
  · rw [resetBlock_of_request hreq]

/-! ### The state after reset -/

/-- Settles O10: each of the six fields is read off `State.reset`; that the response is empty there is the model's
choice (assumption log 12). -/
theorem resetStateHoldsParametersOnly : Obligations.ResetStateHoldsParametersOnly :=
  ⟨rfl, rfl, rfl, rfl, rfl, rfl⟩

end Sys2Proof.Machine

/-! PROOFS. Decoding and encoding undo each other (R60 to R70), and the invariant at reset (R190). -/

namespace Sys2Proof

/-! ### The rows of the code byte -/

/-- R67: RSP_UNNAMED expresses exactly the frames whose code no other row names. -/
theorem Instr.wf_rspUnnamed_iff (c : Byte) (e : Envelope) :
    (Instr.rspUnnamed c e).wf = true ↔ c ∉ Config.namedCodes ∧ e.wf = true := by
  simp [Instr.wf]

/-- The row of a code has no requirement beyond the envelope's: a named code needs none, and an unnamed one is
where RSP_UNNAMED's own requirement holds. -/
theorem codeInstr_wf {e : Envelope} (h : e.wf = true) (c : Byte) : (codeInstr c e).wf = true := by
  by_cases hc : c ∈ Config.namedCodes
  · simp only [Config.namedCodes, List.mem_cons, List.not_mem_nil, or_false] at hc
    obtain rfl | rfl | rfl | rfl | rfl | rfl | rfl | rfl := hc <;> exact h
  · rw [codeInstr_of_unnamed hc]
    exact (Instr.wf_rspUnnamed_iff c e).2 ⟨hc, h⟩

/-- Each row encodes with the code that selects it. -/
theorem encode_codeInstr (c : Byte) (e : Envelope) : encode (codeInstr c e) = .wire (e.toFrame c) := by
  unfold codeInstr
  split_ifs <;> subst_vars <;> rfl

/-! ### Decoding what was encoded -/

/-- Settles O4: an operation's ports hold its own operands; the frame of a code-byte row decodes to the row of its
code, which is RSP_UNNAMED where well-formedness keeps the code unnamed. -/
theorem decodeEncodeGivesInstructionBack : Obligations.DecodeEncodeGivesInstructionBack := by
  intro i h
  cases i with
  | crc16 _ | buildSet _ _ _ | buildGet _ _ _ | validate _ => rfl
  | setCode _ | getCode _ | rspOk _ | rspNe1 _ | rspNe2 _ | rspFail _ | rspOther _ | rspA9 _ =>
    exact decodeFrame_toFrame h _
  | rspUnnamed c e =>
    obtain ⟨hc, hwf⟩ := (Instr.wf_rspUnnamed_iff c e).1 h
    exact (decodeFrame_toFrame hwf c).trans (congrArg Except.ok (codeInstr_of_unnamed hc e))

/-! ### Encoding what was decoded -/

/-- Only a frame decodes: a buffer that does is put together from a code and a well-formed envelope, and the
instruction is that code's row. -/
theorem exists_toFrame_of_decode_wire {f : List Byte} {i : Instr} (h : decode (.wire f) = .ok i) :
    ∃ c e, e.wf = true ∧ f = e.toFrame c ∧ i = codeInstr c e := by
  change decodeFrame f = .ok i at h
  by_cases hf : f.length = 19
  · obtain ⟨c, e, hwf, -, hframe, hrow⟩ := decodeFrame_of_length hf
    exact ⟨c, e, hwf, hframe, Except.ok.inj (h.symm.trans hrow)⟩
  · rw [decodeFrame_of_length_ne hf] at h
    cases h

/-- R69: the two bits of OP have four values, one for each operation. -/
theorem OpCode.eq_zero_or_one_or_two_or_three :
    ∀ op : OpCode, op = 0b00#2 ∨ op = 0b01#2 ∨ op = 0b10#2 ∨ op = 0b11#2 := by
  decide

/-- R69, R70: an operation's operands are all legal, and its encoding presents them under the same OP code. -/
theorem encode_decodeSelect (op : OpCode) (p : Ports) : (decodeSelect op p).wf = true ∧
    ∃ q, encode (decodeSelect op p) = .select op q ∧ decodeSelect op q = decodeSelect op p := by
  obtain rfl | rfl | rfl | rfl := OpCode.eq_zero_or_one_or_two_or_three op <;> exact ⟨rfl, _, rfl, rfl⟩

/-- Settles O5: a buffer that decodes is the frame of the row it decodes to, and an operation reads its own ports
only. -/
theorem encodeDecodeGivesRequestBack : Obligations.EncodeDecodeGivesRequestBack := by
  refine ⟨fun f i h => ?_, fun op p i h => ?_⟩
  · obtain ⟨c, e, hwf, rfl, rfl⟩ := exists_toFrame_of_decode_wire h
    exact ⟨codeInstr_wf hwf c, encode_codeInstr c e⟩
  · obtain rfl := Except.ok.inj h
    obtain ⟨hwf, q, hencode, hdecode⟩ := encode_decodeSelect op p
    exact ⟨hwf, q, hencode, congrArg Except.ok hdecode⟩

end Sys2Proof

namespace Sys2Proof.Machine

/-! ### The invariant at reset -/

/-- Settles O11: reset leaves every byte space empty, which is the canonical form, and no response. -/
theorem resetStateMeetsInvariant : Obligations.ResetStateMeetsInvariant :=
  ⟨Memory.wf_nil, Memory.wf_nil, ⟨rfl, rfl, rfl⟩, fun _ => nofun⟩

end Sys2Proof.Machine
